-- ==== Sys2Proof/Word.lean ====
section
/-! DEFINITION. The word types of the Tholmar 640: bytes of a frame, 16-bit words of the capture memory and
of the converters, and stamps of the timebase. -/

namespace Sys2Proof

/-- A byte of a serial frame (chapter 11). -/
abbrev Byte := BitVec 8

/-- A 16-bit word: a converter sample (R86), a word of the capture memory (R156), an engine cycle number (R16). -/
abbrev Half := BitVec 16

/-- A value of the 32-bit timebase, in ticks of 0.5 µs (R1). -/
abbrev Stamp := BitVec 32

end Sys2Proof
end

