-- ==== Sys2Proof/Config.lean ====
section
/-! DEFINITION. What one implementation fixes and the reference does not give: the response of the knock band
filter, which spec/00_scope.md puts outside ("the coefficients of the knock band filters"). Both functions are
opaque: nothing can be proved of their values, so a claim that holds holds for every filter. Beside them stand the
fixed capacities that the chapters name. -/

namespace Sys2Proof

/-- The band filter's next running state, from its centre code, its running state and a raw sample (R86, R88).
FREE: the reference gives no coefficients (assumption log 5). The running state is an uninterpreted number. -/
opaque Config.filterNext (centre running : Nat) (raw : Half) : Nat

/-- The band filter's output y for a raw sample (R86, R88). FREE, as `Config.filterNext` (assumption log 5). -/
opaque Config.filterOut (centre running : Nat) (raw : Half) : Half

/-- A record queue holds at most 128 records (R146). -/
abbrev Config.queueCapacity : Nat := 128

/-- The capture memory has 4,096 words of 16 bits (R156). -/
abbrev Config.captureWords : Nat := 4096

/-- The largest payload of a frame, 250 bytes (R185). -/
abbrev Config.maxPayload : Nat := 250

/-- One engine cycle is 11,520 angle units (spec/00_scope.md, Units and ranges). -/
abbrev Config.cycleUnits : Nat := 11520

/-- One revolution is 5,760 angle units (spec/00_scope.md, Units and ranges). -/
abbrev Config.revUnits : Nat := 5760

/-- The timebase counts 2,000 ticks per millisecond (R1). -/
abbrev Config.ticksPerMs : Nat := 2000

/-- The start-up period of 2 ms after RSTN rises, in ticks (R190). -/
abbrev Config.startUpTicks : Nat := 4000

/-- The longest busy time of a port, 20 µs, in ticks (R186). -/
abbrev Config.maxBusyTicks : Nat := 40

/-- The converters sample every 20 ticks (R86). -/
abbrev Config.samplePeriod : Nat := 20

end Sys2Proof
end

