-- ==== Sys2Proof/Syntax.lean ====
section
/-! DEFINITION. The commands of the part: one constructor per row of spec/opcode_table.json.

The part is a block, not a processor. A command is an event at one of its pins, the running out of one of its
timers, the reaching of an angle, or a request taken at a serial port. Every command but the three of the reset
line carries the stamp at which it is taken (assumption log 1). A port command carries the port and the payload
bytes of its request frame as they were received, so that the length tests of the chapters are the model's own. -/

namespace Sys2Proof

/-- The three serial ports, A first wherever one is ranked before another (spec/00_scope.md, Numbering). -/
inductive Port where
  | a | b | c
  deriving DecidableEq, Repr

/-- Cylinders 1 to 6 as the engine maker numbers them (spec/00_scope.md, Numbering). -/
inductive Cyl where
  | c1 | c2 | c3 | c4 | c5 | c6
  deriving DecidableEq, Repr

/-- The direction of an edge on an input line. -/
inductive Edge where
  | rising | falling
  deriving DecidableEq, Repr

/-- One constructor per row of spec/opcode_table.json. `t` is the stamp at which the event is taken, `p` the port
and `payload` the payload of the request frame. -/
inductive Instr where
  -- the reset line and the start-up period (R190)
  | rstnLow
  | powerOn
  /-- RSTN rises; `alsin` is the level of the ALSIN pin as the part comes out of reset (R49), true for "H". -/
  | rstnRise (alsin : Bool)
  | startUpEnd (t : Stamp)
  -- sensor edges and samples
  /-- An edge of the conditioned crank signal (R2). -/
  | crankEdge (t : Stamp) (e : Edge)
  | camEdge (t : Stamp) (e : Edge)
  | stall (t : Stamp)
  | angleReached (t : Stamp)
  /-- An edge on the ignition sense line of one cylinder (R42). -/
  | igsEdge (t : Stamp) (n : Cyl) (e : Edge)
  | alsinEdge (t : Stamp) (e : Edge)
  /-- One raw sample of each converter, sensor 0 and sensor 1, in two's complement (R86). -/
  | knockSample (t : Stamp) (raw0 raw1 : Half)
  -- timers
  | declExpiry (t : Stamp) (p : Port)
  | captureHoldExpiry (t : Stamp)
  -- the serial link
  | selectionStart (t : Stamp) (p : Port)
  | processingDone (t : Stamp) (p : Port)
  /-- Select rises on a request whose received bytes, all of them, are `bytes` (R185). -/
  | badFrame (t : Stamp) (p : Port) (bytes : List Byte)
  | unknownCommand (t : Stamp) (p : Port) (code : Byte) (payload : List Byte)
  -- port commands (chapter 11)
  | noOp (t : Stamp) (p : Port) (payload : List Byte)
  | status (t : Stamp) (p : Port) (payload : List Byte)
  | setAlertMask (t : Stamp) (p : Port) (payload : List Byte)
  | clearAlerts (t : Stamp) (p : Port) (payload : List Byte)
  | portReset (t : Stamp) (p : Port) (payload : List Byte)
  -- reading and staging (chapters 1 to 7)
  | readAngle (t : Stamp) (p : Port) (payload : List Byte)
  | stageRows (t : Stamp) (p : Port) (payload : List Byte)
  | readRows (t : Stamp) (p : Port) (payload : List Byte)
  | declareState (t : Stamp) (p : Port) (payload : List Byte)
  | readOpstate (t : Stamp) (p : Port) (payload : List Byte)
  | readMisfire (t : Stamp) (p : Port) (payload : List Byte)
  | readKnockFront (t : Stamp) (p : Port) (payload : List Byte)
  | readKnockState (t : Stamp) (p : Port) (payload : List Byte)
  | retardReset (t : Stamp) (p : Port) (payload : List Byte)
  | readCylinder (t : Stamp) (p : Port) (payload : List Byte)
  | readTable (t : Stamp) (p : Port) (payload : List Byte)
  -- record queues (chapter 8)
  | subscribe (t : Stamp) (p : Port) (payload : List Byte)
  | fetchRecords (t : Stamp) (p : Port) (payload : List Byte)
  | clearQueue (t : Stamp) (p : Port) (payload : List Byte)
  -- capture unit (chapter 9)
  | captureRequest (t : Stamp) (p : Port) (payload : List Byte)
  | mark (t : Stamp) (p : Port) (payload : List Byte)
  | captureRead (t : Stamp) (p : Port) (payload : List Byte)
  | captureRelease (t : Stamp) (p : Port) (payload : List Byte)
  | captureCancel (t : Stamp) (p : Port) (payload : List Byte)
  | captureStatus (t : Stamp) (p : Port) (payload : List Byte)
  -- configuration (chapter 10)
  | stageGlobal (t : Stamp) (p : Port) (payload : List Byte)
  | stageTable (t : Stamp) (p : Port) (payload : List Byte)
  | readActive (t : Stamp) (p : Port) (payload : List Byte)
  | readStaged (t : Stamp) (p : Port) (payload : List Byte)
  | discard (t : Stamp) (p : Port) (payload : List Byte)
  | commit (t : Stamp) (p : Port) (payload : List Byte)
  deriving DecidableEq, Repr

end Sys2Proof
end

