-- ==== Sys2Proof/Machine/Frame.lean ====
section
/-! DEFINITION. Serial frames as bytes (chapter 11, sections 11.1 and 11.5): the check byte, the tests a port makes
of a request frame, and the command codes. -/

namespace Sys2Proof.Machine

/-- The sum of bytes modulo 256. -/
def byteSum : List Byte → Byte
  | [] => 0
  | b :: bs => b + byteSum bs

/-- A frame is closed by the check byte that makes the sum of all its bytes 0 modulo 256 (section 11.1). -/
def sealFrame (body : List Byte) : List Byte := body ++ [0 - byteSum body]

/-- A frame of a code and a payload: code, payload length, payload, check byte (section 11.1). -/
def frameBytes (code : Byte) (payload : List Byte) : List Byte :=
  sealFrame (code :: BitVec.ofNat 8 payload.length :: payload)

/-- R185, test 1: select rose before the check byte placed by the payload length had been received in full, or the
payload length is above 250. `bytes` are the bytes received in full. -/
def frameTruncated : List Byte → Bool
  | _ :: len :: rest => decide (Config.maxPayload < len.toNat) || decide (rest.length < len.toNat + 1)
  | _ => true

/-- The bytes of a request up to its check byte; bytes clocked after it are ignored (R184). -/
def frameBody : List Byte → List Byte
  | code :: len :: rest => code :: len :: rest.take (len.toNat + 1)
  | bytes => bytes

/-- R185, test 2: the byte sum of the frame is not 0 modulo 256. -/
def frameSumWrong (bytes : List Byte) : Bool := decide (byteSum (frameBody bytes) ≠ 0)

/-- R185, tests 1 and 2: the request is answered BAD_FRAME. -/
def frameBad (bytes : List Byte) : Bool := frameTruncated bytes || frameSumWrong bytes

/-- The command codes of section 11.5. -/
def commandCodes : List Nat :=
  [0x00, 0x01, 0x02, 0x03, 0x04, 0x10, 0x18, 0x19, 0x20, 0x21, 0x28, 0x30, 0x38, 0x39, 0x40, 0x41] ++
  [0x48, 0x49, 0x4A, 0x50, 0x51, 0x52, 0x53, 0x54, 0x55, 0x58, 0x59, 0x5A, 0x5B, 0x5C, 0x5D]

/-- R185, test 3: whether a command code stands in the command table of section 11.5. -/
def knownCode (code : Byte) : Bool := commandCodes.contains code.toNat

end Sys2Proof.Machine
end

