-- ==== Sys2Proof/WellFormed.lean ====
section
/-! DEFINITION. Well-formed commands: the terms of `Instr` that are events of the part. A port command's payload is
one that a frame can carry; a BAD_FRAME carries bytes that fail the frame tests of R185; an UNKNOWN_COMMAND carries a
code that is not in the command table. -/

namespace Sys2Proof

/-- A frame carries a payload of 0 to 250 bytes (section 11.1). -/
def payloadFits (payload : List Byte) : Bool := decide (payload.length ≤ Config.maxPayload)

/-- Whether a term is an event of the part. Ports, cylinders, edges and stamps are well formed by their types. -/
def wellFormed : Instr → Bool
  | .rstnLow | .powerOn | .rstnRise _ | .startUpEnd _ | .crankEdge _ _ | .camEdge _ _ | .stall _
  | .angleReached _ | .igsEdge _ _ _ | .alsinEdge _ _ | .knockSample _ _ _ | .declExpiry _ _
  | .captureHoldExpiry _ | .selectionStart _ _ | .processingDone _ _ => true
  | .badFrame _ _ bytes => Machine.frameBad bytes
  | .unknownCommand _ _ code payload => !Machine.knownCode code && payloadFits payload
  | .noOp _ _ pl | .status _ _ pl | .setAlertMask _ _ pl | .clearAlerts _ _ pl | .portReset _ _ pl
  | .readAngle _ _ pl | .stageRows _ _ pl | .readRows _ _ pl | .declareState _ _ pl | .readOpstate _ _ pl
  | .readMisfire _ _ pl | .readKnockFront _ _ pl | .readKnockState _ _ pl | .retardReset _ _ pl
  | .readCylinder _ _ pl | .readTable _ _ pl | .subscribe _ _ pl | .fetchRecords _ _ pl | .clearQueue _ _ pl
  | .captureRequest _ _ pl | .mark _ _ pl | .captureRead _ _ pl | .captureRelease _ _ pl
  | .captureCancel _ _ pl | .captureStatus _ _ pl | .stageGlobal _ _ pl | .stageTable _ _ pl
  | .readActive _ _ pl | .readStaged _ _ pl | .discard _ _ pl | .commit _ _ pl => payloadFits pl

end Sys2Proof
end

