-- ==== Sys2Proof/Decode.lean ====
section
/-! DEFINITION. Decoding. spec/opcode_table.json gives no row any bits, so no word spells a command
(`decodeTableWord` answers none). What the part does decode is a request frame: the bytes received in one selection
(R185, section 11.5). `requestCommand` is that decoder, total on any bytes, and `requestFrame` its encoder. -/

namespace Sys2Proof

/-- No row of spec/opcode_table.json gives bits: a word spells no command. -/
def decodeTableWord (_nbits _w : Nat) : Option Instr := none

/-- The command that a code of section 11.5 names; any other code is UNKNOWN_COMMAND (R185, test 3). -/
def commandOfCode (t : Stamp) (p : Port) (code : Byte) (payload : List Byte) : Instr :=
  match code.toNat with
  | 0x00 => .noOp t p payload
  | 0x01 => .status t p payload
  | 0x02 => .setAlertMask t p payload
  | 0x03 => .clearAlerts t p payload
  | 0x04 => .portReset t p payload
  | 0x10 => .readAngle t p payload
  | 0x18 => .stageRows t p payload
  | 0x19 => .readRows t p payload
  | 0x20 => .declareState t p payload
  | 0x21 => .readOpstate t p payload
  | 0x28 => .readMisfire t p payload
  | 0x30 => .readKnockFront t p payload
  | 0x38 => .readKnockState t p payload
  | 0x39 => .retardReset t p payload
  | 0x40 => .readCylinder t p payload
  | 0x41 => .readTable t p payload
  | 0x48 => .subscribe t p payload
  | 0x49 => .fetchRecords t p payload
  | 0x4A => .clearQueue t p payload
  | 0x50 => .captureRequest t p payload
  | 0x51 => .mark t p payload
  | 0x52 => .captureRead t p payload
  | 0x53 => .captureRelease t p payload
  | 0x54 => .captureCancel t p payload
  | 0x55 => .captureStatus t p payload
  | 0x58 => .stageGlobal t p payload
  | 0x59 => .stageTable t p payload
  | 0x5A => .readActive t p payload
  | 0x5B => .readStaged t p payload
  | 0x5C => .discard t p payload
  | 0x5D => .commit t p payload
  | _ => .unknownCommand t p code payload

/-- R185: the command that the bytes received on port `p` in one selection, taken at stamp `t`, stand for. -/
def requestCommand (t : Stamp) (p : Port) (bytes : List Byte) : Instr :=
  if Machine.frameBad bytes then .badFrame t p bytes
  else
    match bytes with
    | code :: len :: rest => commandOfCode t p code (rest.take len.toNat)
    | _ => .badFrame t p bytes

/-- The stamp, the port and the received bytes of a request command: its frame of section 11.1, with the command code of
section 11.5. None for the commands that are not requests. -/
def requestFrame : Instr → Option (Stamp × Port × List Byte)
  | .rstnLow | .powerOn | .rstnRise _ | .startUpEnd _ | .crankEdge _ _ | .camEdge _ _ | .stall _
  | .angleReached _ | .igsEdge _ _ _ | .alsinEdge _ _ | .knockSample _ _ _ | .declExpiry _ _
  | .captureHoldExpiry _ | .selectionStart _ _ | .processingDone _ _ => none
  | .badFrame t p bytes => some (t, p, bytes)
  | .unknownCommand t p code pl => some (t, p, Machine.frameBytes code pl)
  | .noOp t p pl => some (t, p, Machine.frameBytes 0x00 pl)
  | .status t p pl => some (t, p, Machine.frameBytes 0x01 pl)
  | .setAlertMask t p pl => some (t, p, Machine.frameBytes 0x02 pl)
  | .clearAlerts t p pl => some (t, p, Machine.frameBytes 0x03 pl)
  | .portReset t p pl => some (t, p, Machine.frameBytes 0x04 pl)
  | .readAngle t p pl => some (t, p, Machine.frameBytes 0x10 pl)
  | .stageRows t p pl => some (t, p, Machine.frameBytes 0x18 pl)
  | .readRows t p pl => some (t, p, Machine.frameBytes 0x19 pl)
  | .declareState t p pl => some (t, p, Machine.frameBytes 0x20 pl)
  | .readOpstate t p pl => some (t, p, Machine.frameBytes 0x21 pl)
  | .readMisfire t p pl => some (t, p, Machine.frameBytes 0x28 pl)
  | .readKnockFront t p pl => some (t, p, Machine.frameBytes 0x30 pl)
  | .readKnockState t p pl => some (t, p, Machine.frameBytes 0x38 pl)
  | .retardReset t p pl => some (t, p, Machine.frameBytes 0x39 pl)
  | .readCylinder t p pl => some (t, p, Machine.frameBytes 0x40 pl)
  | .readTable t p pl => some (t, p, Machine.frameBytes 0x41 pl)
  | .subscribe t p pl => some (t, p, Machine.frameBytes 0x48 pl)
  | .fetchRecords t p pl => some (t, p, Machine.frameBytes 0x49 pl)
  | .clearQueue t p pl => some (t, p, Machine.frameBytes 0x4A pl)
  | .captureRequest t p pl => some (t, p, Machine.frameBytes 0x50 pl)
  | .mark t p pl => some (t, p, Machine.frameBytes 0x51 pl)
  | .captureRead t p pl => some (t, p, Machine.frameBytes 0x52 pl)
  | .captureRelease t p pl => some (t, p, Machine.frameBytes 0x53 pl)
  | .captureCancel t p pl => some (t, p, Machine.frameBytes 0x54 pl)
  | .captureStatus t p pl => some (t, p, Machine.frameBytes 0x55 pl)
  | .stageGlobal t p pl => some (t, p, Machine.frameBytes 0x58 pl)
  | .stageTable t p pl => some (t, p, Machine.frameBytes 0x59 pl)
  | .readActive t p pl => some (t, p, Machine.frameBytes 0x5A pl)
  | .readStaged t p pl => some (t, p, Machine.frameBytes 0x5B pl)
  | .discard t p pl => some (t, p, Machine.frameBytes 0x5C pl)
  | .commit t p pl => some (t, p, Machine.frameBytes 0x5D pl)

end Sys2Proof
end

