-- ==== Sys2Proof/Machine/State.lean ====
section
/-! DEFINITION. The state of the Tholmar 640 as plain data, block by block, the reasons a step could stop, and the
state after reset. Every field cites the rule that names it; the few fields that are the model's own bookkeeping say so. -/

namespace Sys2Proof.Machine

/-! ### Things of which the part has a fixed number -/

/-- One value per port. -/
structure PerPort (α : Type) where
  a : α
  b : α
  c : α
  deriving DecidableEq, Repr

/-- One value per cylinder, 1 to 6. -/
structure PerCyl (α : Type) where
  c1 : α
  c2 : α
  c3 : α
  c4 : α
  c5 : α
  c6 : α
  deriving DecidableEq, Repr

/-- The two knock sensors, KS0 and KS1. -/
inductive Sensor where
  | ks0 | ks1
  deriving DecidableEq, Repr

/-- One value per knock sensor. -/
structure PerSensor (α : Type) where
  s0 : α
  s1 : α
  deriving DecidableEq, Repr

/-- The six knock gains: 1, 2, 4, 8, 16 and 32 (R25, R97). -/
inductive Gain where
  | g1 | g2 | g4 | g8 | g16 | g32
  deriving DecidableEq, Repr

/-! ### Configuration images (chapter 10) -/

/-- A slot map row (R25). -/
structure Row where
  cyl : Cyl
  sensor : Sensor
  knockStart : Nat
  knockLen : Nat
  guardStart : Nat
  guardLen : Nat
  initGain : Gain
  autoRange : Bool
  deriving DecidableEq, Repr

/-- One configuration image (section 10.1): twelve rows, the 33 global items in item order with their codes, the two
misfire limit tables (entry 4 × speed band + load band) and the two knock threshold tables (entry speed band). -/
structure Image where
  rows : Vector Row 12
  items : Vector Nat 33
  misfireA : Vector Nat 64
  misfireB : Vector Nat 64
  knockA : Vector Nat 16
  knockB : Vector Nat 16
  deriving DecidableEq, Repr

/-- The commit classes, the least first (R183). -/
inductive CommitClass where
  | calibration | layout | geometry
  deriving DecidableEq, Repr

/-- The timings of a COMMIT (R180). -/
inductive CommitTiming where
  | now | atCycle
  deriving DecidableEq, Repr

/-- A pending commit: its timing, its class and its committing port (R181). -/
structure PendingCommit where
  timing : CommitTiming
  cls : CommitClass
  port : Port
  deriving DecidableEq, Repr

/-- The configuration stage CFG (R175). -/
structure Cfg where
  active : Image
  staged : Image
  generation : BitVec 32
  dirty : Bool
  lastStaging : Option Port
  pendingCommit : Option PendingCommit
  deriving DecidableEq, Repr

/-! ### Angle decoder and slot map (chapters 1 and 2) -/

/-- The five sync states (section 1.3). -/
inductive SyncState where
  | halted | seek | verify | crankSync | fullSync
  deriving DecidableEq, Repr

/-- The crank polarity in use (R2). -/
inductive Polarity where
  | normal | inverted
  deriving DecidableEq, Repr

/-- The causes of a SYNC record, in the order of their codes (section 1.3, R148). -/
inductive SyncCause where
  | edge | gapFound | verified | verifyFail | polarityFlip | camPhase | gapMisplaced | toothOverrun | camFault
  | stall | commit
  deriving DecidableEq, Repr

/-- The angle decoder ADEC (R22). Speed, speed band and overspeed are functions of `trev` (R11). -/
structure Adec where
  sync : SyncState
  polarity : Polarity
  lastGood : Polarity
  /-- The newest period, 0 when none (R4). -/
  period : Nat
  /-- The period before it, 0 when none (R4). -/
  prevPeriod : Nat
  /-- The last tooth period (R4). -/
  toothPeriod : Nat
  /-- The SEEK edge count (R6). -/
  seekCount : Nat
  /-- The periods formed since the gap end, in VERIFY (R7). -/
  verifyCount : Nat
  /-- The stamp of the last accepted edge, when there is one (R3, R6). -/
  lastEdge : Option Stamp
  /-- The last gap-end stamp (R6, R7, R10). -/
  lastGapEnd : Option Stamp
  /-- The stall reference (R18). -/
  stallRef : Stamp
  /-- The tooth index j (R9). -/
  toothIndex : Nat
  /-- The cycle angle of the last accepted tooth, in FULL_SYNC (R12). -/
  toothAngle : Nat
  /-- The first cycle angle whose events have not been raised (R17, R31). The model's own bookkeeping of "first
  reaches or passes" (assumption log 4). -/
  nextAngle : Nat
  /-- The revolution time (R10). -/
  trev : Nat
  /-- The engine cycle number (R16). -/
  cycle : Half
  /-- The in-window mark of the current cycle (R15). -/
  inWindow : Bool
  /-- The consecutive verify failure count, 0 to 255 (R8). -/
  verifyFails : Nat
  /-- The consecutive cam fault count, 0 to 2 (R15). -/
  camFaults : Nat
  /-- The tooth anomaly counter (R3). -/
  anomalyTotal : Nat
  /-- The sync loss counter (R9). -/
  syncLossTotal : Nat
  /-- The cumulative cam fault counter (R14, R15). -/
  camFaultTotal : Nat
  /-- The polarity flip counter (R8). -/
  flipTotal : Nat
  /-- The cumulative verify failure counter (R8). -/
  verifyFailTotal : Nat
  deriving DecidableEq, Repr

/-- The slot map's own state: the cursor (R30), none when unpositioned, and the tracked mark of each slot index (R33). -/
structure Smap where
  cursor : Option Nat
  marks : Vector Bool 6
  deriving DecidableEq, Repr

/-! ### Ignition sense and operating state (chapter 3) -/

/-- An open spark window record of IGSU (R41). -/
structure SparkRecord where
  slot : Nat
  cycle : Half
  tdc : Nat
  angle : Option Int
  deriving DecidableEq, Repr

/-- A declaration held in a port's slot (R46). -/
structure Declaration where
  antiLag : Bool
  band : Nat
  mask : BitVec 6
  start : Stamp
  duration : Nat
  deriving DecidableEq, Repr

/-- The threshold sets (section 3.4). -/
inductive ThrSet where
  | setA | setB
  deriving DecidableEq, Repr

/-- The operating state block OPS: declaration slots (R46), the held ALSIN level, true for "H" (R49), the merged state
(R50, R51), the set in use and the tail count (R52). -/
structure Ops where
  decl : PerPort (Option Declaration)
  alsin : Bool
  antiLag : Bool
  fuelCut : BitVec 6
  band : Nat
  stale : Bool
  set : ThrSet
  tail : Nat
  deriving DecidableEq, Repr

/-! ### Verdicts and the parts of an assessment (chapters 4 to 7) -/

/-- The cut reasons (R44). -/
inductive CutReason where
  | spark | fuel
  deriving DecidableEq, Repr

/-- The spark part of an instance (R43). -/
structure SparkPart where
  angle : Option Int
  cut : Option CutReason
  deriving DecidableEq, Repr

/-- The operating snapshot of an instance (R54). -/
structure Snapshot where
  set : ThrSet
  band : Nat
  stale : Bool
  fuelCut : Bool
  deriving DecidableEq, Repr

/-- Misfire verdicts (section 4.4). -/
inductive MisfireVerdict where
  | notAssessed | noMisfire | misfire | rough | cut | neighborCut
  deriving DecidableEq, Repr

/-- Misfire reasons (R72). -/
inductive MisfireReason where
  | warmup | lowSpeed | overspeed | spark | fuel
  deriving DecidableEq, Repr

/-- D, the effective limit and W, which are present together or absent together (R72). -/
structure MisfireIndex where
  d : Int
  limit : Nat
  w : Nat
  deriving DecidableEq, Repr

/-- The judgement of a misfire decision (R72): verdict, reason, and D, limit and W. -/
structure MisfireJudged where
  verdict : MisfireVerdict
  reason : Option MisfireReason
  index : Option MisfireIndex
  deriving DecidableEq, Repr

/-- The misfire part of an instance (R72): the judgement and the cylinder's counts after it. -/
structure MisfirePart where
  judged : MisfireJudged
  cons : Nat
  block : Nat
  deriving DecidableEq, Repr

/-- A knock window result (R93). `i` and `inorm` are I and I_n. -/
structure KnockResult where
  n : Nat
  noWindow : Bool
  clipped : Bool
  i : Option Nat
  inorm : Option Nat
  gain : Gain
  deriving DecidableEq, Repr

/-- The guard states, in the order of their codes (section 7.6). -/
inductive GuardState where
  | notConfigured | void | short | valid
  deriving DecidableEq, Repr

/-- A guard window result (R94): state VOID, SHORT or VALID, and G_n for VALID. -/
structure GuardResult where
  state : GuardState
  gn : Option Nat
  n : Nat
  gain : Gain
  deriving DecidableEq, Repr

/-- The guard place of a front-end part (R95). -/
inductive GuardPlace where
  | empty
  | notConfigured
  | result (r : GuardResult)
  deriving DecidableEq, Repr

/-- Knock verdicts (section 6.4). -/
inductive KnockVerdict where
  | notAssessed | clean | knock | noise | clipped | noWindow
  deriving DecidableEq, Repr

/-- Knock reasons (R109). -/
inductive KnockReason where
  | overspeed | cut
  deriving DecidableEq, Repr

/-- The judgement of a knock decision (R118), without REF. -/
structure KnockJudged where
  verdict : KnockVerdict
  reason : Option KnockReason
  k : Option Nat
  inorm : Option Nat
  gain : Gain
  guard : GuardState
  q : Option Nat
  deriving DecidableEq, Repr

/-- The knock part of an instance (R118): the judgement and the cylinder's REF after the decision. -/
structure KnockPart where
  judged : KnockJudged
  ref : Nat
  deriving DecidableEq, Repr

/-! ### Misfire assessor (chapter 4) -/

/-- A segment record (R60). `time` is T, absent while the segment is open. -/
structure Segment where
  slot : Nat
  cycle : Half
  start : Stamp
  time : Option Nat
  deriving DecidableEq, Repr

/-- The last decided record (R63). -/
structure LastDecided where
  slot : Nat
  cycle : Half
  cut : Bool
  deriving DecidableEq, Repr

/-- A cylinder's consecutive count, persist mark and block count (R73, R74, R75). -/
structure MisfireCounts where
  cons : Nat
  persist : Bool
  block : Nat
  deriving DecidableEq, Repr

/-- The misfire assessor MFA (R83). The history is oldest first (R68). -/
structure Mfa where
  segments : List Segment
  history : List Nat
  last : Option LastDecided
  counts : PerCyl MisfireCounts
  blockCycles : Nat
  deriving DecidableEq, Repr

/-! ### Knock front end and knock assessor (chapters 5 and 6) -/

/-- An open knock integrator (R89). -/
structure KnockIntegrator where
  slot : Nat
  cycle : Half
  row : Nat
  cyl : Cyl
  gain : Gain
  n : Nat
  sum : Nat
  clip : Bool
  deriving DecidableEq, Repr

/-- An open guard integrator (R89). -/
structure GuardIntegrator where
  slot : Nat
  cycle : Half
  row : Nat
  cyl : Cyl
  gain : Gain
  n : Nat
  sum : Nat
  void : Bool
  deriving DecidableEq, Repr

/-- One sensor's chain: the stage gain (R87), the band filter's running state (R86, R88), and the two integrators, none
when closed (R89). -/
structure SensorChain where
  stage : Gain
  filter : Nat
  knock : Option KnockIntegrator
  guard : Option GuardIntegrator
  deriving DecidableEq, Repr

/-- A row's gain in use and low-run count (R97). -/
structure RowGain where
  gain : Gain
  lowRun : Nat
  deriving DecidableEq, Repr

/-- The knock front end KFE. `lastSample` is the stamp of the last sample instant, from which the next is counted (R86). -/
structure Kfe where
  chain : PerSensor SensorChain
  rows : Vector RowGain 12
  lastSample : Stamp
  deriving DecidableEq, Repr

/-- A cylinder's REF, retard and recovery count (R105). -/
structure KnockCounts where
  ref : Nat
  retard : Nat
  recovery : Nat
  deriving DecidableEq, Repr

/-- The knock assessor KNA: one record per cylinder and GREF per sensor (R105). -/
structure Kna where
  cyl : PerCyl KnockCounts
  gref : PerSensor Nat
  deriving DecidableEq, Repr

/-! ### Cylinder table (chapter 7) -/

/-- An entry of the pending assessment list (R132). -/
structure SlotInst where
  slot : Nat
  cycle : Half
  row : Nat
  cyl : Cyl
  sensor : Sensor
  snapshot : Option Snapshot
  spark : Option SparkPart
  knockPlace : Option KnockResult
  guardPlace : GuardPlace
  misfire : Option MisfirePart
  knock : Option KnockPart
  deriving DecidableEq, Repr

/-- The four lifetime counters of a published entry (R140). -/
structure Lifetime where
  misfires : Nat
  knocks : Nat
  noise : Nat
  cuts : Nat
  deriving DecidableEq, Repr

/-- A published entry (R136). -/
structure Entry where
  inUse : Bool
  assessed : Bool
  row : Nat
  cycle : Half
  misfire : MisfireJudged
  cons : Nat
  block : Nat
  knock : KnockJudged
  ref : Nat
  retard : Nat
  recovery : Nat
  spark : SparkPart
  set : ThrSet
  stale : Bool
  life : Lifetime
  deriving DecidableEq, Repr

/-- The cylinder table CYT: the pending assessment list, oldest first (R131), and the published entries (R136). -/
structure Cyt where
  pendingList : List SlotInst
  entry : PerCyl Entry
  deriving DecidableEq, Repr

/-! ### Records and ports (chapters 8 and 11) -/

/-- The causes of a GAIN record (R99). -/
inductive GainCause where
  | clip | low
  deriving DecidableEq, Repr

/-- The capture kinds (R157). -/
inductive CapKind where
  | knockRaw | tooth
  deriving DecidableEq, Repr

/-- The outcomes of a CAPTURE record, in the order of their codes (R148). -/
inductive CapOutcome where
  | ready | expired | cancelled | truncated
  deriving DecidableEq, Repr

/-- The fields of its own of a record of each kind (R144, R148; SLOT: R141). -/
inductive RecordBody where
  | slot (row : Nat) (misfire : MisfireJudged) (knock : KnockJudged) (retard recovery : Nat) (spark : SparkPart)
      (set : ThrSet) (stale : Bool)
  | misfire (d : Int) (limit cons : Nat) (set : ThrSet) (stale : Bool)
  | persist (cons limit : Nat)
  | rate (count length : Nat)
  | knock (k inorm retard step : Nat) (set : ThrSet)
  | noise (sensor : Sensor) (q gn : Nat)
  | gain (sensor : Sensor) (row : Nat) (old new : Gain) (cause : GainCause)
  | sync (state : SyncState) (cause : SyncCause) (polarity : Polarity)
  | capture (handle : Nat) (outcome : CapOutcome) (kind : CapKind) (words : Nat)
  | config (generation : BitVec 32) (port : Port) (cls : CommitClass)
  deriving DecidableEq, Repr

/-- A record: its cylinder, none for cylinder 0, its cycle number, its timestamp and the fields of its kind (R144). -/
structure Record where
  cyl : Option Cyl
  cycle : Half
  stamp : Stamp
  body : RecordBody
  deriving DecidableEq, Repr

/-- The formats of fetched records (R147, R149). -/
inductive Format where
  | compact | full
  deriving DecidableEq, Repr

/-- The result codes, in the order of their numbers (section 11.1). -/
inductive ResultCode where
  | ok | badFrame | unknownCommand | badLength | badValue | notAllowed | notReady | empty | busy | limit | badConfig
  | none
  deriving DecidableEq, Repr

/-- A response frame's result code and payload. -/
structure Response where
  code : ResultCode
  payload : List Byte
  deriving DecidableEq, Repr

/-- A port's selection: none in progress, one in progress whose request will be taken when select rises, or one that was
answered NOT_READY and whose request will not be taken (R184, R186). -/
inductive Selection where
  | idle | serving | refused
  deriving DecidableEq, Repr

/-- One port with its record queue. The attention output is a function of these (R154). -/
structure PortState where
  /-- The record queue, oldest first (R146). -/
  queue : List Record
  /-- The dropped count (R146). -/
  dropped : Nat
  /-- The kind mask: bit (code − 1) selects a kind (R149). -/
  subscription : BitVec 10
  format : Format
  watermark : Nat
  /-- The alert flags in the bit order of R153. -/
  alerts : BitVec 5
  /-- The alert mask (R154). -/
  alertMask : BitVec 5
  /-- The response buffer (R184). -/
  buffer : Option Response
  /-- Busy with the processing of a taken request (R186). -/
  busy : Bool
  /-- When the request in processing was taken (R186). -/
  busySince : Stamp
  /-- The selection in progress (R184). -/
  selection : Selection
  /-- The frame on data out in the selection in progress; none while data out is at high impedance (R184). -/
  dataOut : Option Response
  deriving DecidableEq, Repr

/-! ### Capture unit (chapter 9) -/

/-- The modes of a capture request (R157). -/
inductive CapMode where
  | once | repeating
  deriving DecidableEq, Repr

/-- The states of a capture request, in the order of their codes (R157, R159). -/
inductive ReqState where
  | waiting | triggered | active
  deriving DecidableEq, Repr

/-- A capture request (R157). The condition sets are bytes in the bit order of R158. A target of none is the target 0. -/
structure Request where
  handle : Nat
  port : Port
  kind : CapKind
  target : Option Cyl
  count : Nat
  named : Byte
  latched : Byte
  mode : CapMode
  state : ReqState
  deriving DecidableEq, Repr

/-- The capture unit's state, in the order of its codes (R156, R172). -/
inductive UnitState where
  | free | filling | held
  deriving DecidableEq, Repr

/-- The capture memory: the words held, word 0 first (R156). Words beyond the words held have no defined content and cannot
be read, so the list is the whole content, and equal contents are equal lists (assumption log 6). -/
structure Memory where
  words : List Half
  deriving DecidableEq, Repr

/-- The window now being recorded by a KNOCK_RAW capture: its sensor and the place of its header (R163). -/
structure CapWindow where
  sensor : Sensor
  header : Nat
  deriving DecidableEq, Repr

/-- The capture unit CAP (R156, R157, R159). -/
structure Cap where
  unit : UnitState
  /-- The handle of the ACTIVE request, when there is one (R156). -/
  active : Option Nat
  mem : Memory
  /-- Cycles or revolutions recorded so far (R156). -/
  recorded : Nat
  /-- A TOOTH capture has started at its gap end (R165). -/
  started : Bool
  /-- The window being recorded by a KNOCK_RAW capture (R163). -/
  window : Option CapWindow
  /-- The stamp at which HELD was entered (R166). -/
  holdStart : Stamp
  /-- The duration of the hold timer, in ticks (R166). -/
  holdTicks : Nat
  requests : List Request
  /-- The next-handle number (R159). -/
  nextHandle : Nat
  deriving DecidableEq, Repr

/-! ### The machine -/

/-- The state of the part and the queue of waiting commands. -/
structure State where
  /-- RSTN is at "H" (R190). -/
  running : Bool
  /-- Within the first 2 ms after RSTN rose (R190). -/
  startUp : Bool
  /-- The timebase (R1). -/
  timebase : Stamp
  adec : Adec
  smap : Smap
  igsu : PerCyl (Option SparkRecord)
  ops : Ops
  mfa : Mfa
  kfe : Kfe
  kna : Kna
  cyt : Cyt
  ports : PerPort PortState
  cap : Cap
  cfg : Cfg
  /-- The commands that are waiting, first in, first out. The model's own field. -/
  pending : List Instr
  deriving DecidableEq, Repr

/-- The reasons a step could stop with a fault. There are none: every command of the table has an effect the reference
states, in every state (NOTES.md, Stops). -/
inductive Fault where
  deriving DecidableEq, Repr

/-- The reasons a step could be refused. -/
inductive Refusal where
  /-- The command has no meaning in the model. Raised by `exec` alone, for an arm without a meaning; safe. No arm of this
  model raises it. -/
  | notModelled (mnemonic : String)
  deriving DecidableEq, Repr

/-! ### The state after reset -/

/-- The default of a row (R25) with its cylinder, sensor and auto-range. -/
def defaultRow (cyl : Cyl) (sensor : Sensor) (autoRange : Bool) : Row :=
  { cyl, sensor, knockStart := 160, knockLen := 960, guardStart := 2240, guardLen := 320, initGain := .g8, autoRange }

/-- The twelve rows after RSTN (R25). -/
def defaultRows : Vector Row 12 :=
  #v[defaultRow .c1 .ks0 true, defaultRow .c3 .ks1 true, defaultRow .c4 .ks1 true, defaultRow .c2 .ks0 true,
     defaultRow .c1 .ks0 false, defaultRow .c1 .ks0 false, defaultRow .c1 .ks0 false, defaultRow .c1 .ks0 false,
     defaultRow .c1 .ks0 false, defaultRow .c1 .ks0 false, defaultRow .c1 .ks0 false, defaultRow .c1 .ks0 false]

/-- The 33 global items at their defaults, in item order (section 10.1). -/
def defaultItems : Vector Nat 33 :=
  #v[60, 2, 2, 0, 100, 0, 0, 5759, 0, 3,
     0, 1, 1, 1000, 20,
     160, 600, 8, 4000, 200, 20, 4,
     6, 6,
     4, 4096, 256, 768, 40, 6, 20, 1,
     2000]

/-- The image that both images hold after RSTN (R175, section 10.1). -/
def defaultImage : Image where
  rows := defaultRows
  items := defaultItems
  misfireA := .replicate 64 600
  misfireB := .replicate 64 1800
  knockA := .replicate 16 640
  knockB := .replicate 16 900

/-- CFG after RSTN (R175). -/
def Cfg.reset : Cfg where
  active := defaultImage
  staged := defaultImage
  generation := 0
  dirty := false
  lastStaging := none
  pendingCommit := none

/-- ADEC after RSTN (R22). DESIGN CHOICE (assumption log 7): R22's table gives no value for VERIFY's period count, and the model
takes 0 for `verifyCount`; `stallRef`, `toothAngle` and `nextAngle` are 0 as well. None of the four is read before it is written. -/
def Adec.reset : Adec where
  sync := .halted
  polarity := .normal
  lastGood := .normal
  period := 0
  prevPeriod := 0
  toothPeriod := 0
  seekCount := 0
  verifyCount := 0
  lastEdge := none
  lastGapEnd := none
  stallRef := 0
  toothIndex := 0
  toothAngle := 0
  nextAngle := 0
  trev := 0
  cycle := 0
  inWindow := false
  verifyFails := 0
  camFaults := 0
  anomalyTotal := 0
  syncLossTotal := 0
  camFaultTotal := 0
  flipTotal := 0
  verifyFailTotal := 0

/-- SMAP after RSTN: unpositioned (R30), all marks clear (R33). -/
def Smap.reset : Smap where
  cursor := none
  marks := .replicate 6 false

/-- OPS after RSTN: slots empty (R46), load band 0 and STALE set (R51), set A and tail count 0 (R53). The held ALSIN level is
the pin's level when RSTN rises (R49); until then it is "L" (assumption log 7). -/
def Ops.reset : Ops where
  decl := ⟨none, none, none⟩
  alsin := false
  antiLag := false
  fuelCut := 0
  band := 0
  stale := true
  set := .setA
  tail := 0

/-- A cylinder's counts of MFA after RSTN (R83). -/
def MisfireCounts.zero : MisfireCounts where
  cons := 0
  persist := false
  block := 0

/-- MFA after RSTN (R83). -/
def Mfa.reset : Mfa where
  segments := []
  history := []
  last := none
  counts := ⟨.zero, .zero, .zero, .zero, .zero, .zero⟩
  blockCycles := 0

/-- A sensor's chain after RSTN: stage gain 8 (R87), integrators closed (R89). The band filter's running state is an
uninterpreted number (assumption log 5). -/
def SensorChain.reset : SensorChain where
  stage := .g8
  filter := 0
  knock := none
  guard := none

/-- KFE after RSTN: gain in use 8 and low-run count 0 in every row (R97); the sample instants are counted from timebase
value 0 (R86). -/
def Kfe.reset : Kfe where
  chain := ⟨.reset, .reset⟩
  rows := .replicate 12 ⟨.g8, 0⟩
  lastSample := 0

/-- A cylinder's state of KNA after RSTN: REF at the start value 4,096, retard 0, recovery count 0 (R106). -/
def KnockCounts.reset : KnockCounts where
  ref := 4096
  retard := 0
  recovery := 0

/-- KNA after RSTN (R106, R128). -/
def Kna.reset : Kna where
  cyl := ⟨.reset, .reset, .reset, .reset, .reset, .reset⟩
  gref := ⟨4096, 4096⟩

/-- A published entry after RSTN, with its in-use mark (R136). -/
def Entry.reset (inUse : Bool) : Entry where
  inUse := inUse
  assessed := false
  row := 0
  cycle := 0
  misfire := ⟨.notAssessed, none, none⟩
  cons := 0
  block := 0
  knock := ⟨.notAssessed, none, none, none, .g8, .notConfigured, none⟩
  ref := 4096
  retard := 0
  recovery := 0
  spark := ⟨none, none⟩
  set := .setA
  stale := true
  life := ⟨0, 0, 0, 0⟩

/-- CYT after RSTN: the list empty (R131), cylinders 1 to 4 in use (R136). -/
def Cyt.reset : Cyt where
  pendingList := []
  entry := ⟨.reset true, .reset true, .reset true, .reset true, .reset false, .reset false⟩

/-- A port after RSTN: its record state (R155), its response buffer empty and no selection (R190). `busySince` is not read
before it is written (assumption log 7). -/
def PortState.reset : PortState where
  queue := []
  dropped := 0
  subscription := 0
  format := .compact
  watermark := 0
  alerts := 0
  alertMask := 0
  buffer := none
  busy := false
  busySince := 0
  selection := .idle
  dataOut := none

/-- CAP after RSTN (R156, R157, R159). DESIGN CHOICE (assumption log 7): no rule gives the cycles or revolutions recorded after RSTN,
and the model takes 0 for `recorded`, which CAPTURE_STATUS shows. The hold timer is not read before it is written (log 7). -/
def Cap.reset : Cap where
  unit := .free
  active := none
  mem := ⟨[]⟩
  recorded := 0
  started := false
  window := none
  holdStart := 0
  holdTicks := 0
  requests := []
  nextHandle := 1

/-- The machine held in reset, RSTN at "L": every block at the value its chapter states for RSTN (R190). The queue is empty. -/
def State.reset : State where
  running := false
  startUp := false
  timebase := 0
  adec := .reset
  smap := .reset
  igsu := ⟨none, none, none, none, none, none⟩
  ops := .reset
  mfa := .reset
  kfe := .reset
  kna := .reset
  cyt := .reset
  ports := ⟨.reset, .reset, .reset⟩
  cap := .reset
  cfg := .reset
  pending := []

end Sys2Proof.Machine
end

