-- ==== Sys2Proof/Machine/Update.lean ====
section
/-! DEFINITION. The named updates of State, one per field. Every operation of the model writes State through these, and
Sys2Proof/Laws/State.lean holds one lemma per field per update. -/

namespace Sys2Proof.Machine

/-- Write the level of RSTN. -/
def State.setRunning (s : State) (x : Bool) : State := { s with running := x }

/-- Write the start-up mark. -/
def State.setStartUp (s : State) (x : Bool) : State := { s with startUp := x }

/-- Write the timebase. -/
def State.setTimebase (s : State) (x : Stamp) : State := { s with timebase := x }

/-- Write the angle decoder. -/
def State.setAdec (s : State) (x : Adec) : State := { s with adec := x }

/-- Write the slot map. -/
def State.setSmap (s : State) (x : Smap) : State := { s with smap := x }

/-- Write the spark window records. -/
def State.setIgsu (s : State) (x : PerCyl (Option SparkRecord)) : State := { s with igsu := x }

/-- Write the operating state block. -/
def State.setOps (s : State) (x : Ops) : State := { s with ops := x }

/-- Write the misfire assessor. -/
def State.setMfa (s : State) (x : Mfa) : State := { s with mfa := x }

/-- Write the knock front end. -/
def State.setKfe (s : State) (x : Kfe) : State := { s with kfe := x }

/-- Write the knock assessor. -/
def State.setKna (s : State) (x : Kna) : State := { s with kna := x }

/-- Write the cylinder table. -/
def State.setCyt (s : State) (x : Cyt) : State := { s with cyt := x }

/-- Write the three ports. -/
def State.setPorts (s : State) (x : PerPort PortState) : State := { s with ports := x }

/-- Write the capture unit. -/
def State.setCap (s : State) (x : Cap) : State := { s with cap := x }

/-- Write the configuration stage. -/
def State.setCfg (s : State) (x : Cfg) : State := { s with cfg := x }

/-- Write the queue of waiting commands. -/
def State.setPending (s : State) (x : List Instr) : State := { s with pending := x }

end Sys2Proof.Machine
end

