-- ==== Sys2Proof/Machine/Tables.lean ====
section
/-! DEFINITION. Reading and writing one of several like things: per port, per cylinder, per sensor, and vectors addressed by a
number. A read beyond a vector's end gives the stated default and a write there changes nothing: no row, slot index or
table entry the part uses lies there. -/

namespace Sys2Proof.Machine

/-- The value of one port. -/
def PerPort.get {α : Type} (v : PerPort α) : Port → α
  | .a => v.a
  | .b => v.b
  | .c => v.c

/-- Replace the value of one port. -/
def PerPort.set {α : Type} (v : PerPort α) (p : Port) (x : α) : PerPort α :=
  match p with
  | .a => { v with a := x }
  | .b => { v with b := x }
  | .c => { v with c := x }

/-- Change the value of every port. -/
def PerPort.map {α β : Type} (f : α → β) (v : PerPort α) : PerPort β := ⟨f v.a, f v.b, f v.c⟩

/-- The ports in letter order. -/
def allPorts : List Port := [.a, .b, .c]

/-- The value of one cylinder. -/
def PerCyl.get {α : Type} (v : PerCyl α) : Cyl → α
  | .c1 => v.c1
  | .c2 => v.c2
  | .c3 => v.c3
  | .c4 => v.c4
  | .c5 => v.c5
  | .c6 => v.c6

/-- Replace the value of one cylinder. -/
def PerCyl.set {α : Type} (v : PerCyl α) (c : Cyl) (x : α) : PerCyl α :=
  match c with
  | .c1 => { v with c1 := x }
  | .c2 => { v with c2 := x }
  | .c3 => { v with c3 := x }
  | .c4 => { v with c4 := x }
  | .c5 => { v with c5 := x }
  | .c6 => { v with c6 := x }

/-- Change the value of every cylinder, each by its number. -/
def PerCyl.mapWith {α β : Type} (f : Cyl → α → β) (v : PerCyl α) : PerCyl β :=
  ⟨f .c1 v.c1, f .c2 v.c2, f .c3 v.c3, f .c4 v.c4, f .c5 v.c5, f .c6 v.c6⟩

/-- The values in cylinder order. -/
def PerCyl.toList {α : Type} (v : PerCyl α) : List α := [v.c1, v.c2, v.c3, v.c4, v.c5, v.c6]

/-- The cylinders in number order. -/
def allCyls : List Cyl := [.c1, .c2, .c3, .c4, .c5, .c6]

/-- A cylinder's number, 1 to 6. -/
def cylNumber : Cyl → Nat
  | .c1 => 1
  | .c2 => 2
  | .c3 => 3
  | .c4 => 4
  | .c5 => 5
  | .c6 => 6

/-- The cylinder of a number; 0 and numbers above 6 name none. -/
def cylOfNumber : Nat → Option Cyl
  | 1 => some .c1
  | 2 => some .c2
  | 3 => some .c3
  | 4 => some .c4
  | 5 => some .c5
  | 6 => some .c6
  | _ => none

/-- A cylinder's bit in a 6-bit mask: bit 0 is cylinder 1. R46 says so of the fuel-cut mask and R121 of the retard mask. DEDUCED
(assumption log 20): the ignition sense enable mask of R43 is numbered in the same way, where the reference says "one per cylinder"
alone. -/
def cylBit (c : Cyl) : Nat := cylNumber c - 1

/-- The value of one sensor. -/
def PerSensor.get {α : Type} (v : PerSensor α) : Sensor → α
  | .ks0 => v.s0
  | .ks1 => v.s1

/-- Replace the value of one sensor. -/
def PerSensor.set {α : Type} (v : PerSensor α) (σ : Sensor) (x : α) : PerSensor α :=
  match σ with
  | .ks0 => { v with s0 := x }
  | .ks1 => { v with s1 := x }

/-- Change the value of both sensors. -/
def PerSensor.map {α β : Type} (f : α → β) (v : PerSensor α) : PerSensor β := ⟨f v.s0, f v.s1⟩

/-- A sensor's number: 0 is KS0, 1 is KS1 (R25). -/
def Sensor.number : Sensor → Nat
  | .ks0 => 0
  | .ks1 => 1

/-- Entry `i` of a vector, or the default `d` beyond its end. -/
def vget {α : Type} {n : Nat} (d : α) (v : Vector α n) (i : Nat) : α := if h : i < n then v[i] else d

/-- Replace entry `i` of a vector; nothing changes beyond its end. -/
def vset {α : Type} {n : Nat} (v : Vector α n) (i : Nat) (x : α) : Vector α n := if h : i < n then v.set i x else v

/-- Change every entry of a vector, each by its number. -/
def vmapIdx {α β : Type} {n : Nat} (f : Nat → α → β) (v : Vector α n) : Vector β n :=
  ⟨(v.toList.mapIdx f).toArray, by simp⟩

/-- The number of a gain (R25). -/
def Gain.value : Gain → Nat
  | .g1 => 1
  | .g2 => 2
  | .g4 => 4
  | .g8 => 8
  | .g16 => 16
  | .g32 => 32

/-- The gain of a number, none for a number that is no gain (R38). -/
def gainOfValue : Nat → Option Gain
  | 1 => some .g1
  | 2 => some .g2
  | 4 => some .g4
  | 8 => some .g8
  | 16 => some .g16
  | 32 => some .g32
  | _ => none

/-- The gain code of a SLOT record, 0 to 5 (R147). -/
def Gain.code : Gain → Nat
  | .g1 => 0
  | .g2 => 1
  | .g4 => 2
  | .g8 => 3
  | .g16 => 4
  | .g32 => 5

/-- One gain step down; gain 1 stays (R99). -/
def Gain.down : Gain → Gain
  | .g1 => .g1
  | .g2 => .g1
  | .g4 => .g2
  | .g8 => .g4
  | .g16 => .g8
  | .g32 => .g16

/-- One gain step up; gain 32 stays (R99). -/
def Gain.up : Gain → Gain
  | .g1 => .g2
  | .g2 => .g4
  | .g4 => .g8
  | .g8 => .g16
  | .g16 => .g32
  | .g32 => .g32

/-- The state of one port. -/
def State.port (s : State) (p : Port) : PortState := s.ports.get p

/-- Replace the state of one port. -/
def State.setPort (s : State) (p : Port) (x : PortState) : State := s.setPorts (s.ports.set p x)

end Sys2Proof.Machine
end

