-- ==== Sys2Proof/Machine/Bytes.lean ====
section
/-! DEFINITION. Bytes of payloads: multi-byte fields most significant byte first, signed fields in two's complement, flag
bytes, and saturation. -/

namespace Sys2Proof.Machine

/-- The last `k` bytes of a number, most significant first. -/
def beBytes : Nat → Nat → List Byte
  | 0, _ => []
  | k + 1, n => BitVec.ofNat 8 (n / 256 ^ k) :: beBytes k n

/-- One byte of a number. -/
def byte (n : Nat) : Byte := BitVec.ofNat 8 n

/-- A signed value as a 16-bit two's complement number. -/
def signed16 (d : Int) : Nat := (BitVec.ofInt 16 d).toNat

/-- A number from its bits, bit 0 first. -/
def bitsNum : List Bool → Nat
  | [] => 0
  | b :: bs => b.toNat + 2 * bitsNum bs

/-- A byte of flags, bit 0 first (assumption log 11). -/
def flagByte (bs : List Bool) : Byte := byte (bitsNum bs)

/-- Byte `i` of a payload as a number. -/
def u8 (payload : List Byte) (i : Nat) : Nat := (payload.getD i 0).toNat

/-- Bytes `i` and `i + 1` of a payload as a number. -/
def u16 (payload : List Byte) (i : Nat) : Nat := u8 payload i * 256 + u8 payload (i + 1)

/-- Bytes `i` to `i + 3` of a payload as a number. -/
def u32 (payload : List Byte) (i : Nat) : Nat := u16 payload i * 65536 + u16 payload (i + 2)

/-- A count after one more arrival, saturating at `top` (spec/00_scope.md, Arithmetic). -/
def bump (top n : Nat) : Nat := min top (n + 1)

/-- The value of an optional field in a payload: 0 when absent (R147, section 7.6). -/
def orZero (n : Option Nat) : Nat := n.getD 0

/-- Clamp to a range (spec/00_scope.md, Arithmetic). -/
def clamp (lo hi : Nat) (x : Int) : Nat := max lo (min hi x.toNat)

/-- The ticks from one stamp to a later one, modulo 2^32 (R1). -/
def elapsed (now ref : Stamp) : Nat := (now - ref).toNat

end Sys2Proof.Machine
end

