-- ==== Sys2Proof/Machine/Operands.lean ====
section
/-! DEFINITION. The operands of the commands and of the decisions: the items of an image by name, the run list, the ranges
in which a staged value must lie, and the codes in which payloads carry names. -/

namespace Sys2Proof.Machine

/-! ### Items of an image (section 10.1) -/

/-- Global item `k`, 1 to 33, as its code. -/
def Image.item (img : Image) (k : Nat) : Nat := vget 0 img.items (k - 1)

/-- Write global item `k`, 1 to 33. -/
def Image.setItem (img : Image) (k v : Nat) : Image := { img with items := vset img.items (k - 1) v }

/-- Tooth positions N_pos. -/
def Image.nPos (img : Image) : Nat := img.item 1
/-- Missing teeth m. -/
def Image.missing (img : Image) : Nat := img.item 2
/-- Crank polarity mode: 0 NORMAL, 1 INVERTED, 2 AUTO. -/
def Image.polMode (img : Image) : Nat := img.item 3
/-- Reference offset. -/
def Image.refOffset (img : Image) : Nat := img.item 4
/-- Stall timeout, ms. -/
def Image.stallMs (img : Image) : Nat := img.item 5
/-- Cam edge: 0 RISING, 1 FALLING, 2 BOTH, 3 NONE. -/
def Image.camEdge (img : Image) : Nat := img.item 6
/-- Cam window lo. -/
def Image.camLo (img : Image) : Nat := img.item 7
/-- Cam window hi. -/
def Image.camHi (img : Image) : Nat := img.item 8
/-- Run start s. -/
def Image.runStart (img : Image) : Nat := img.item 9
/-- Run end e. -/
def Image.runEnd (img : Image) : Nat := img.item 10
/-- Ignition sense enable mask. -/
def Image.igsMask (img : Image) : Nat := img.item 11
/-- ALSIN enable. -/
def Image.alsinEnable (img : Image) : Nat := img.item 12
/-- ALSIN active level: 0 "L", 1 "H". -/
def Image.alsinActive (img : Image) : Nat := img.item 13
/-- Declaration expiry, ms. -/
def Image.declMs (img : Image) : Nat := img.item 14
/-- Tail, cycles. -/
def Image.tailCycles (img : Image) : Nat := img.item 15
/-- Segment offset. -/
def Image.segOffset (img : Image) : Nat := img.item 16
/-- Minimum assessment speed, rpm. -/
def Image.minSpeed (img : Image) : Nat := img.item 17
/-- Rough gain Kr. -/
def Image.roughGain (img : Image) : Nat := img.item 18
/-- Rough ceiling. -/
def Image.roughCeiling (img : Image) : Nat := img.item 19
/-- Block length, cycles. -/
def Image.blockLength (img : Image) : Nat := img.item 20
/-- Rate limit. -/
def Image.rateLimit (img : Image) : Nat := img.item 21
/-- Consecutive limit. -/
def Image.consLimit (img : Image) : Nat := img.item 22
/-- Band filter centre code of a sensor. -/
def Image.centre (img : Image) (σ : Sensor) : Nat := img.item (23 + σ.number)
/-- Adaptation shift. -/
def Image.adaptShift (img : Image) : Nat := img.item 25
/-- Reference initial value. -/
def Image.refInit (img : Image) : Nat := img.item 26
/-- Reference floor. -/
def Image.refFloor (img : Image) : Nat := img.item 27
/-- Guard threshold. -/
def Image.guardThr (img : Image) : Nat := img.item 28
/-- Retard maximum, qd. -/
def Image.retardMax (img : Image) : Nat := img.item 29
/-- Retard step, qd. -/
def Image.retardStep (img : Image) : Nat := img.item 30
/-- Recovery cycles. -/
def Image.recoveryCycles (img : Image) : Nat := img.item 31
/-- Recovery step, qd. -/
def Image.recoveryStep (img : Image) : Nat := img.item 32
/-- Capture hold, ms. -/
def Image.holdMs (img : Image) : Nat := img.item 33

/-- The largest value of a reference, 2,097,120 (R105). -/
def refCeiling : Nat := 2097120

/-- The start value of a reference: the reference initial value, raised to the reference floor (R106). -/
def Image.refStart (img : Image) : Nat := max img.refInit img.refFloor

/-- The misfire limit table of a set (R69). -/
def Image.misfireTable (img : Image) : ThrSet → Vector Nat 64
  | .setA => img.misfireA
  | .setB => img.misfireB

/-- The knock threshold table of a set (R114). -/
def Image.knockTable (img : Image) : ThrSet → Vector Nat 16
  | .setA => img.knockA
  | .setB => img.knockB

/-! ### Rows and the run list (sections 2.1 and 2.2) -/

/-- Row `r` of an image. -/
def Image.row (img : Image) (r : Nat) : Row := vget (defaultRow .c1 .ks0 false) img.rows r

/-- The slot count n = e − s + 1 (R26). -/
def Image.slots (img : Image) : Nat := img.runEnd + 1 - img.runStart

/-- The slot length L = 11,520 / n (R26). -/
def Image.slotLen (img : Image) : Nat := Config.cycleUnits / img.slots

/-- Whether a row lies in the run list (R39). -/
def Image.inRun (img : Image) (r : Nat) : Bool := decide (img.runStart ≤ r) && decide (r ≤ img.runEnd)

/-- Whether a cylinder appears in the run list (R136). -/
def Image.hasCyl (img : Image) (c : Cyl) : Bool :=
  (List.range 12).any fun r => img.inRun r && decide ((img.row r).cyl = c)

/-- The tooth angle, 5,760 / N_pos units (section 1.2). -/
def Image.toothAngle (img : Image) : Nat := Config.revUnits / img.nPos

/-! ### Staged ranges (section 10.1, R25, R57, R104) -/

/-- The permitted tooth position counts (section 10.1, item 1). -/
def nPosValues : List Nat := [12, 15, 16, 18, 20, 24, 30, 32, 36, 40, 45, 48, 60]

/-- The staged range of a global item as its least and greatest value (section 10.1); item 1 is a list, see `itemInRange`. -/
def itemBounds : Nat → Nat × Nat
  | 1 => (12, 60)
  | 2 => (1, 2)
  | 3 => (0, 2)
  | 4 => (0, 5759)
  | 5 => (10, 500)
  | 6 => (0, 3)
  | 7 => (0, 11519)
  | 8 => (0, 11519)
  | 9 => (0, 11)
  | 10 => (0, 11)
  | 11 => (0, 63)
  | 12 => (0, 1)
  | 13 => (0, 1)
  | 14 => (100, 5000)
  | 15 => (0, 255)
  | 16 => (0, 1920)
  | 17 => (300, 2000)
  | 18 => (0, 63)
  | 19 => (0, 32767)
  | 20 => (50, 1000)
  | 21 => (1, 1000)
  | 22 => (1, 15)
  | 23 => (0, 31)
  | 24 => (0, 31)
  | 25 => (2, 7)
  | 26 => (256, 2097120)
  | 27 => (1, 65535)
  | 28 => (256, 16383)
  | 29 => (0, 80)
  | 30 => (1, 16)
  | 31 => (1, 255)
  | 32 => (1, 8)
  | 33 => (100, 10000)
  | _ => (1, 0)

/-- R176, test 3: the item number is 1 to 33 and the value lies in the item's staged range. -/
def itemInRange (k v : Nat) : Bool :=
  decide ((itemBounds k).1 ≤ v) && decide (v ≤ (itemBounds k).2) && (decide (k ≠ 1) || nPosValues.contains v)

/-- The sensor of a field value (R25). -/
def sensorOfNumber : Nat → Option Sensor
  | 0 => some .ks0
  | 1 => some .ks1
  | _ => none

/-- A value that lies in a range, or none. -/
def within (lo hi v : Nat) : Option Nat := if lo ≤ v ∧ v ≤ hi then some v else none

/-- Write one field of a row, fields numbered as in R38; none when the field number or the value is out of range (R25). -/
def Row.write (r : Row) (field v : Nat) : Option Row :=
  match field with
  | 0 => (cylOfNumber v).map fun c => { r with cyl := c }
  | 1 => (sensorOfNumber v).map fun σ => { r with sensor := σ }
  | 2 => (within 0 2880 v).map fun x => { r with knockStart := x }
  | 3 => (within 16 2880 v).map fun x => { r with knockLen := x }
  | 4 => (within 0 5760 v).map fun x => { r with guardStart := x }
  | 5 => if v = 0 then some { r with guardLen := 0 } else (within 16 2880 v).map fun x => { r with guardLen := x }
  | 6 => (gainOfValue v).map fun g => { r with initGain := g }
  | 7 => (within 0 1 v).map fun x => { r with autoRange := decide (x = 1) }
  | _ => none

/-! ### Codes of names -/

/-- A port's code: 0 A, 1 B, 2 C (R148). -/
def portCode : Port → Nat
  | .a => 0
  | .b => 1
  | .c => 2

/-- An optional port's code: 3 for none (R172, R178). -/
def portCodeOrNone : Option Port → Nat
  | some p => portCode p
  | none => 3

/-- Sync state codes (R23). -/
def SyncState.code : SyncState → Nat
  | .halted => 0
  | .seek => 1
  | .verify => 2
  | .crankSync => 3
  | .fullSync => 4

/-- Polarity codes (R23). -/
def Polarity.code : Polarity → Nat
  | .normal => 0
  | .inverted => 1

/-- The other polarity (R8). -/
def Polarity.other : Polarity → Polarity
  | .normal => .inverted
  | .inverted => .normal

/-- SYNC cause codes (R148). -/
def SyncCause.code : SyncCause → Nat
  | .edge => 0
  | .gapFound => 1
  | .verified => 2
  | .verifyFail => 3
  | .polarityFlip => 4
  | .camPhase => 5
  | .gapMisplaced => 6
  | .toothOverrun => 7
  | .camFault => 8
  | .stall => 9
  | .commit => 10

/-- Set codes: 0 A, 1 B (R46). -/
def ThrSet.code : ThrSet → Nat
  | .setA => 0
  | .setB => 1

/-- Cut reason codes (section 7.6). -/
def cutCode : Option CutReason → Nat
  | none => 0
  | some .spark => 1
  | some .fuel => 2

/-- Guard state codes (section 7.6). -/
def GuardState.code : GuardState → Nat
  | .notConfigured => 0
  | .void => 1
  | .short => 2
  | .valid => 3

/-- Misfire verdict codes of the published entry form (section 7.6). -/
def MisfireVerdict.code : MisfireVerdict → Nat
  | .notAssessed => 0
  | .noMisfire => 1
  | .misfire => 2
  | .rough => 3
  | .cut => 4
  | .neighborCut => 5

/-- Misfire reason codes of the published entry form (section 7.6). -/
def misfireReasonCode : Option MisfireReason → Nat
  | none => 0
  | some .warmup => 1
  | some .lowSpeed => 2
  | some .overspeed => 3
  | some .spark => 4
  | some .fuel => 5

/-- Knock verdict codes of the published entry form (section 7.6). -/
def KnockVerdict.code : KnockVerdict → Nat
  | .notAssessed => 0
  | .clean => 1
  | .knock => 2
  | .noise => 3
  | .clipped => 4
  | .noWindow => 5

/-- Knock reason codes of the published entry form (section 7.6). -/
def knockReasonCode : Option KnockReason → Nat
  | none => 0
  | some .overspeed => 2
  | some .cut => 3

/-- Format codes (R149). -/
def Format.code : Format → Nat
  | .compact => 0
  | .full => 1

/-- Capture outcome codes (R148). -/
def CapOutcome.code : CapOutcome → Nat
  | .ready => 0
  | .expired => 1
  | .cancelled => 2
  | .truncated => 3

/-- Capture kind codes (R148). -/
def CapKind.code : CapKind → Nat
  | .knockRaw => 0
  | .tooth => 1

/-- Capture mode codes (R158). -/
def CapMode.code : CapMode → Nat
  | .once => 0
  | .repeating => 1

/-- Capture request state codes (R159). -/
def ReqState.code : ReqState → Nat
  | .waiting => 0
  | .triggered => 1
  | .active => 2

/-- Capture unit state codes (R172). -/
def UnitState.code : UnitState → Nat
  | .free => 0
  | .filling => 1
  | .held => 2

/-- Commit class codes (R148). -/
def CommitClass.code : CommitClass → Nat
  | .calibration => 0
  | .layout => 1
  | .geometry => 2

/-- Result codes (section 11.1). -/
def ResultCode.code : ResultCode → Nat
  | .ok => 0
  | .badFrame => 1
  | .unknownCommand => 2
  | .badLength => 3
  | .badValue => 4
  | .notAllowed => 5
  | .notReady => 6
  | .empty => 7
  | .busy => 8
  | .limit => 9
  | .badConfig => 10
  | .none => 11

/-- The bytes of a response frame (section 11.1). -/
def Response.bytes (r : Response) : List Byte := frameBytes (byte r.code.code) r.payload

end Sys2Proof.Machine
end

