-- ==== Sys2Proof/Machine/Angle.lean ====
section
/-! DEFINITION. Speed, the angle clock and the cycle layout (sections 1.4, 1.5, 1.6 and 2.3, and the segment boundaries of
section 4.2). -/

namespace Sys2Proof.Machine

/-! ### Speed (R11) -/

/-- The speed in rpm of a revolution time: trunc(120,000,000 / T_rev), and 0 while T_rev is 0 (R11). -/
def rpmOf (trev : Nat) : Nat := 120000000 / trev

/-- The speed in rpm (R11). -/
def Adec.rpm (a : Adec) : Nat := rpmOf a.trev

/-- The speed band, min(15, rpm / 600) (R11). -/
def Adec.band (a : Adec) : Nat := min 15 (a.rpm / 600)

/-- Overspeed: rpm exceeds 10,000 (R11). -/
def Adec.overspeed (a : Adec) : Bool := decide (10000 < a.rpm)

/-! ### The angle clock (R12, R13) -/

/-- The angle from the last accepted tooth to the next real tooth: one tooth angle, or m + 1 of them after the last tooth
before the gap (R13). -/
def Adec.nextToothStep (a : Adec) (img : Image) : Nat :=
  if a.toothIndex + 1 + img.missing = img.nPos then (img.missing + 1) * img.toothAngle else img.toothAngle

/-- trunc(ticks since the last accepted edge × tooth angle / last tooth period) (R13). -/
def Adec.travel (a : Adec) (img : Image) (t : Stamp) : Nat :=
  match a.lastEdge with
  | some e => elapsed t e * img.toothAngle / a.toothPeriod
  | none => 0

/-- The interpolated angle from a tooth at `base`, capped at the next tooth's angle minus 1 and held at `top` (R13). -/
def Adec.interpolate (a : Adec) (img : Image) (t : Stamp) (base top : Nat) : Nat :=
  min (base + a.travel img t) (min (base + a.nextToothStep img - 1) top)

/-- The revolution angle of the last accepted tooth: (reference offset + j × tooth angle) modulo 5,760 (R12). -/
def Adec.toothRevAngle (a : Adec) (img : Image) : Nat :=
  (img.refOffset + a.toothIndex * img.toothAngle) % Config.revUnits

/-- The revolution angle at a stamp, in CRANK_SYNC; it holds at 5,759 (R13). -/
def Adec.revAngle (a : Adec) (img : Image) (t : Stamp) : Nat :=
  a.interpolate img t (a.toothRevAngle img) (Config.revUnits - 1)

/-- The cycle angle at a stamp, in FULL_SYNC; it holds at 11,519 (R13). -/
def Adec.cycleAngle (a : Adec) (img : Image) (t : Stamp) : Nat :=
  a.interpolate img t a.toothAngle (Config.cycleUnits - 1)

/-- R14: whether a cycle angle lies in the cam window. -/
def inCamWindow (img : Image) (x : Nat) : Bool :=
  let m := fun (d : Int) => d % (Config.cycleUnits : Int)
  decide (m ((x : Int) - img.camLo) ≤ m ((img.camHi : Int) - img.camLo))

/-- R14: the half h for which a + 5,760h lies in the cam window, as the cycle angle it gives. -/
def camPhase (img : Image) (a : Nat) : Option Nat :=
  if inCamWindow img a then some a
  else if inCamWindow img (a + Config.revUnits) then some (a + Config.revUnits)
  else none

/-- Whether a cam edge is of the selected direction (section 1.6, R14). -/
def camSelected (img : Image) (e : Edge) : Bool :=
  match img.camEdge, e with
  | 0, .rising => true
  | 1, .falling => true
  | 2, _ => true
  | _, _ => false

/-! ### The cycle layout (R27 to R29, R58) -/

/-- The kinds of layout events (R17). -/
inductive EventKind where
  | sparkClose | knockClose | guardClose | segment | slotBoundary | sparkOpen | knockOpen | guardOpen
  deriving DecidableEq, Repr

/-- The order of R29 at one angle: window closes, then segment boundaries, then the slot boundary, then window opens. -/
def EventKind.rank : EventKind → Nat
  | .sparkClose | .knockClose | .guardClose => 0
  | .segment => 1
  | .slotBoundary => 2
  | .sparkOpen | .knockOpen | .guardOpen => 3

/-- The order of events of one kind of R29 and one slot, which the reference leaves open (assumption log 4). -/
def EventKind.sub : EventKind → Nat
  | .sparkClose | .sparkOpen => 0
  | .knockClose | .knockOpen => 1
  | .guardClose | .guardOpen => 2
  | .segment | .slotBoundary => 0

/-- A layout event: its unwrapped angle, its kind and its slot (R27). -/
structure LayoutEvent where
  angle : Int
  kind : EventKind
  slot : Nat
  deriving DecidableEq, Repr

/-- The cycle angle at which an event is raised: its unwrapped angle modulo 11,520 (R27). -/
def LayoutEvent.cycleAngle (e : LayoutEvent) : Nat := (e.angle % (Config.cycleUnits : Int)).toNat

/-- R28: the instance cycle number of an event raised in cycle `c`. -/
def LayoutEvent.instCycle (e : LayoutEvent) (c : Half) : Half :=
  if e.angle < 0 then c + 1 else if (Config.cycleUnits : Int) ≤ e.angle then c - 1 else c

/-- Slot `i`'s TDC angle (R26). -/
def Image.tdc (img : Image) (i : Nat) : Nat := i * img.slotLen

/-- Slot `i`'s row of the run list (R26). -/
def Image.slotRow (img : Image) (i : Nat) : Nat := img.runStart + i

/-- R58: the unwrapped angle of slot `i`'s segment boundary, the tooth position at or before TDC + segment offset. -/
def Image.boundary (img : Image) (i : Nat) : Int :=
  let x : Int := img.tdc i + img.segOffset
  x - (x - img.refOffset) % (img.toothAngle : Int)

/-- The layout events of one slot (R27, R58). -/
def Image.slotEvents (img : Image) (i : Nat) : List LayoutEvent :=
  let r := img.row (img.slotRow i)
  let z : Int := img.tdc i
  [⟨z - 1440, .sparkOpen, i⟩, ⟨z + 720, .sparkClose, i⟩,
   ⟨z + r.knockStart, .knockOpen, i⟩, ⟨z + r.knockStart + r.knockLen, .knockClose, i⟩,
   ⟨img.boundary i, .segment, i⟩, ⟨z, .slotBoundary, i⟩] ++
  (if r.guardLen = 0 then []
   else [⟨z + r.guardStart, .guardOpen, i⟩, ⟨z + r.guardStart + r.guardLen, .guardClose, i⟩])

/-- All layout events of an image (R27). -/
def Image.layoutEvents (img : Image) : List LayoutEvent := (List.range img.slots).flatMap img.slotEvents

/-- The key by which events are ordered: angle, then R29's order, then the slot index. -/
def LayoutEvent.key (e : LayoutEvent) : Nat :=
  ((e.cycleAngle * 4 + e.kind.rank) * 16 + e.slot) * 4 + e.kind.sub

/-- Insert an event in order of its key. -/
def insertEvent (e : LayoutEvent) : List LayoutEvent → List LayoutEvent
  | [] => [e]
  | x :: xs => if e.key ≤ x.key then e :: x :: xs else x :: insertEvent e xs

/-- The events whose cycle angles lie from `lo` to `hi`, in the order in which they are handed (R17, R29). -/
def Image.eventsBetween (img : Image) (lo hi : Nat) : List LayoutEvent :=
  ((img.layoutEvents.filter fun e => decide (lo ≤ e.cycleAngle) && decide (e.cycleAngle ≤ hi))).foldr insertEvent []

end Sys2Proof.Machine
end

