-- ==== Sys2Proof/Machine/Flags.lean ====
section
/-! DEFINITION. The alert flags of a port and its attention output (section 8.5). -/

namespace Sys2Proof.Machine

/-- The bit of QUEUE_OVERFLOW (R153). -/
def alertOverflow : Nat := 0
/-- The bit of SYNC_CHANGE (R153). -/
def alertSync : Nat := 1
/-- The bit of CAPTURE (R153). -/
def alertCapture : Nat := 2
/-- The bit of CONFIG_APPLIED (R153). -/
def alertConfig : Nat := 3
/-- The bit of DECL_EXPIRED (R153). -/
def alertDecl : Nat := 4

/-- The alert set that holds one flag alone. -/
def alertBit (b : Nat) : BitVec 5 := BitVec.ofNat 5 (2 ^ b)

/-- Set one alert flag; a flag already set stays set (R153). -/
def PortState.raiseAlert (b : Nat) (x : PortState) : PortState := { x with alerts := x.alerts ||| alertBit b }

/-- Clear the alert flags whose bits are 1 (R153, R188). -/
def PortState.clearAlerts (bits : BitVec 5) (x : PortState) : PortState := { x with alerts := x.alerts &&& ~~~bits }

/-- R154: attention is asserted while the watermark is above 0 and the queue holds at least that many records, or some flag is
set whose mask bit is set. It is a function of the port's state, so it is formed anew at each change. -/
def PortState.attention (x : PortState) : Bool :=
  (decide (0 < x.watermark) && decide (x.watermark ≤ x.queue.length)) || decide (x.alerts &&& x.alertMask ≠ 0)

/-- The level of the attention output, true for "H": "L" while attention is asserted (R154). -/
def PortState.attentionOut (x : PortState) : Bool := !x.attention

end Sys2Proof.Machine
end

