-- ==== Sys2Proof/Machine/Ops.lean ====
section
/-! DEFINITION. The shared operations: the arrival of an event at its stamp, records and their offer to the queues, alerts,
taking a request at a port and answering it. -/

namespace Sys2Proof.Machine

/-! ### Events and time -/

/-- An event taken at stamp `t`: the timebase has counted to `t` (R1, assumption log 1). -/
def State.arrive (s : State) (t : Stamp) : State := s.setTimebase t

/-- An event that reaches the part at stamp `t`. While RSTN is at "L" the part is held in reset and no event acts (R190). -/
def onEvent (t : Stamp) (act : State → State) (s : State) : State :=
  if s.running then act (s.arrive t) else s

/-! ### Records and alerts (sections 8.1, 8.2 and 8.5) -/

/-- The kind code of a record (R144). -/
def RecordBody.kindCode : RecordBody → Nat
  | .slot .. => 1
  | .misfire .. => 2
  | .persist .. => 3
  | .rate .. => 4
  | .knock .. => 5
  | .noise .. => 6
  | .gain .. => 7
  | .sync .. => 8
  | .capture .. => 9
  | .config .. => 10

/-- R145, R146: one record offered to one queue. A queue whose subscription leaves out the kind takes no copy; a queue with
room takes it at the newest end; a full queue discards it, counts it and sets QUEUE_OVERFLOW. -/
def PortState.offer (r : Record) (x : PortState) : PortState :=
  if x.subscription.getLsbD (r.body.kindCode - 1) then
    if x.queue.length < Config.queueCapacity then { x with queue := x.queue ++ [r] }
    else ({ x with dropped := bump 65535 x.dropped } : PortState).raiseAlert alertOverflow
  else x

/-- Emit a record of a kind offered to all ports (R145). -/
def State.emit (s : State) (r : Record) : State := s.setPorts (s.ports.map (·.offer r))

/-- Emit a record offered to one port alone (R145). -/
def State.emitTo (s : State) (p : Port) (r : Record) : State := s.setPort p ((s.port p).offer r)

/-- Set one alert on every port (R153). -/
def State.alertAll (s : State) (b : Nat) : State := s.setPorts (s.ports.map (·.raiseAlert b))

/-- Set one alert on one port (R153). -/
def State.alertOn (s : State) (p : Port) (b : Nat) : State := s.setPort p ((s.port p).raiseAlert b)

/-! ### Requests and responses (section 11.1) -/

/-- A response of a result code with payload length 0. -/
def bare (c : ResultCode) : Response := ⟨c, []⟩

/-- The response OK with a payload. -/
def okWith (payload : List Byte) : Response := ⟨.ok, payload⟩

/-- Place a response in a port's buffer (R185). -/
def State.respond (s : State) (p : Port) (r : Response) : State :=
  s.setPort p { s.port p with buffer := some r }

/-- Select rises on a port: the selection ends and data out goes to high impedance (R184). -/
def State.endSelection (s : State) (p : Port) : State :=
  s.setPort p { s.port p with selection := .idle, dataOut := none }

/-- Select rises on a port and its request is taken: the selection ends and the port is busy (R184, R186). -/
def State.takeSelection (s : State) (p : Port) (t : Stamp) : State :=
  s.setPort p { s.port p with selection := .idle, dataOut := none, busy := true, busySince := t }

/-- Select rises on port `p` at stamp `t`. With no selection in progress nothing happens; a selection that was answered
NOT_READY ends and its request is not taken (R186); otherwise the request is taken, and `serve` carries it out and forms the
response from the state as it stands then (R184, R185). -/
def takeRequest (t : Stamp) (p : Port) (serve : State → State × Response) : State → State :=
  onEvent t fun s =>
    match (s.port p).selection with
    | .idle => s
    | .refused => s.endSelection p
    | .serving => (serve (s.takeSelection p t)).1.respond p (serve (s.takeSelection p t)).2

/-- R185 and the length test of a command: a payload length above 250 counts as truncated and is answered BAD_FRAME, any other
length but the command's own BAD_LENGTH. A request that fails a test changes nothing. -/
def ofLength (n : Nat) (payload : List Byte) (serve : State → State × Response) (s : State) : State × Response :=
  if Config.maxPayload < payload.length then (s, bare .badFrame)
  else if payload.length = n then serve s
  else (s, bare .badLength)

/-- A command that only reads: it answers OK with a payload formed from the state and changes no state. -/
def reading (form : State → List Byte) (s : State) : State × Response := (s, okWith (form s))

/-- A request that fails a test: it changes nothing and is answered by a result code alone. -/
def refuse (c : ResultCode) (s : State) : State × Response := (s, bare c)

end Sys2Proof.Machine
end

