-- ==== Sys2Proof/Machine/Capture.lean ====
section
/-! DEFINITION. The capture unit (chapter 9): the capture memory, latching and arming, the grant, filling of both kinds, the
end of filling, and the freeing of the memory. -/

namespace Sys2Proof.Machine

/-! ### The capture memory (section 9.1) -/

/-- The canonical form of the capture memory: never more than 4,096 words are held (R156). -/
def Memory.wf (m : Memory) : Bool := decide (m.words.length ≤ Config.captureWords)

/-- The words held (R156). -/
def Memory.held (m : Memory) : Nat := m.words.length

/-- The empty memory. -/
def Memory.empty : Memory := ⟨[]⟩

/-- Write the next free word; a full memory stores nothing (R156, R164). -/
def Memory.push (m : Memory) (w : Half) : Memory :=
  if m.held < Config.captureWords then ⟨m.words ++ [w]⟩ else m

/-- Word `i` of the words held, none beyond them (R156). -/
def Memory.read (m : Memory) (i : Nat) : Option Half := m.words[i]?

/-- Rewrite word `i` of the words held: a header field that changes while its window is recorded (section 9.6). -/
def Memory.patch (m : Memory) (i : Nat) (f : Half → Half) : Memory := ⟨m.words.modify i f⟩

/-- Up to `r` words from position `pos` (R168). -/
def Memory.slice (m : Memory) (pos r : Nat) : List Half := (m.words.drop pos).take r

/-! ### Conditions and the request list (sections 9.2 to 9.4) -/

/-- IMMEDIATE, bit 0 of a condition set (R158). -/
def condImmediate : Byte := 0x01
/-- FULL_SYNC, bit 1 (R158). -/
def condFullSync : Byte := 0x02
/-- KNOCK, bit 2 (R158). -/
def condKnock : Byte := 0x04
/-- MISFIRE, bit 3 (R158). -/
def condMisfire : Byte := 0x08
/-- NOISE, bit 4 (R158). -/
def condNoise : Byte := 0x10

/-- MARK_A, MARK_B and MARK_C, bits 5 to 7 (R158). -/
def condMark : Port → Byte
  | .a => 0x20
  | .b => 0x40
  | .c => 0x80

/-- The largest count of a kind (R157). -/
def CapKind.maxCount : CapKind → Nat
  | .knockRaw => 16
  | .tooth => 32

/-- R160: latch those of the conditions that a WAITING request names; when every named condition is latched, the request becomes
TRIGGERED. A request TRIGGERED or ACTIVE does not change. -/
def Request.latch (conds : Byte) (r : Request) : Request :=
  if r.state = .waiting then
    { r with
      latched := r.latched ||| (conds &&& r.named)
      state := if r.latched ||| (conds &&& r.named) = r.named then .triggered else .waiting }
  else r

/-- The conditions that latch at acceptance and at a re-arm: IMMEDIATE, and FULL_SYNC while in FULL_SYNC (R159, R160). -/
def armConds (s : State) : Byte :=
  if s.adec.sync = .fullSync then condImmediate ||| condFullSync else condImmediate

/-- R169: a request returns to WAITING with every latch cleared and re-arms as at acceptance. -/
def Request.rearm (conds : Byte) (r : Request) : Request :=
  Request.latch conds { r with state := .waiting, latched := 0 }

/-- The ACTIVE request: the one named by the unit (R156, R157). -/
def Cap.activeRequest (c : Cap) : Option Request :=
  match c.active with
  | some h => c.requests.find? fun r => decide (r.handle = h)
  | none => none

/-- The owner of the unit: the port of the ACTIVE request (R156). -/
def Cap.owner (c : Cap) : Option Port := c.activeRequest.map (·.port)

/-- The request to be granted: of port A if it has a TRIGGERED request, otherwise of B, otherwise of C; the older of the port's
requests in the list (R162). -/
def Cap.nextGrant (c : Cap) : Option Request :=
  let of := fun p => c.requests.find? fun r => decide (r.port = p) && decide (r.state = .triggered)
  (of .a).or ((of .b).or (of .c))

/-- Change the requests of one handle. -/
def setRequestState (h : Nat) (st : ReqState) (l : List Request) : List Request :=
  l.map fun r => if r.handle = h then { r with state := st } else r

/-- Change the capture unit's state. -/
def State.modCap (s : State) (f : Cap → Cap) : State := s.setCap (f s.cap)

/-! ### CAPTURE records and the end of filling (section 9.8) -/

/-- R167: the CAPTURE record of a request, to its port alone, and that port's CAPTURE alert. -/
def State.emitCapture (s : State) (t : Stamp) (r : Request) (o : CapOutcome) : State :=
  (s.emitTo r.port
    { cyl := if r.kind = .knockRaw then r.target else none
      cycle := s.adec.cycle
      stamp := t
      body := .capture r.handle o r.kind s.cap.mem.held }).alertOn r.port alertCapture

/-- R166: the end of filling. The unit becomes HELD, the hold timer starts with the active capture hold, and a CAPTURE record
goes to the owner. -/
def State.endFilling (s : State) (t : Stamp) (o : CapOutcome) : State :=
  match s.cap.activeRequest with
  | none => s
  | some r =>
    (s.modCap fun c =>
      { c with unit := .held, window := none, holdStart := t,
               holdTicks := s.cfg.active.holdMs * Config.ticksPerMs }).emitCapture t r o

/-! ### Grant and freeing (sections 9.1 and 9.5) -/

/-- R162: the grant rule. When the unit is FREE and requests are TRIGGERED, one becomes ACTIVE and the unit FILLING. A KNOCK_RAW
grant whose target is not in the active run list ends at once with outcome TRUNCATED (R165). -/
def State.grant (s : State) (t : Stamp) : State :=
  if s.cap.unit = .free then
    match s.cap.nextGrant with
    | none => s
    | some r =>
      let s' := s.modCap fun c =>
        { c with unit := .filling, active := some r.handle, mem := .empty, recorded := 0, started := false,
                 window := none, requests := setRequestState r.handle .active c.requests }
      if r.kind = .knockRaw ∧ r.target.any s.cfg.active.hasCyl = false then s'.endFilling t .truncated else s'
  else s

/-- Freeing the memory makes the unit FREE and sets the words held to 0 (R156). -/
def Cap.freeMemory (c : Cap) : Cap :=
  { c with unit := .free, active := none, mem := .empty, started := false, window := none }

/-- Remove the request of a handle from the list (R157). -/
def Cap.removeRequest (c : Cap) (h : Nat) : Cap :=
  { c with requests := c.requests.filter fun r => decide (r.handle ≠ h) }

/-- Latch conditions into every WAITING request that the event reaches, then apply the grant rule (R160, R162). DESIGN CHOICE
(assumption log 22): where one event makes requests of two ports TRIGGERED while the unit is FREE, R162 lets either be taken first;
the model latches all of them and then grants once, by the order of the ports. -/
def State.latchAll (s : State) (t : Stamp) (conds : Request → Byte) : State :=
  (s.modCap fun c => { c with requests := c.requests.map fun r => r.latch (conds r) }).grant t

/-! ### Notices from the other blocks -/

/-- The ACTIVE request of a kind while the unit is FILLING. -/
def Cap.fillingAs (c : Cap) (k : CapKind) : Option Request :=
  if c.unit = .filling then c.activeRequest.filter fun r => decide (r.kind = k) else none

/-- R160: a completion notice latches KNOCK, MISFIRE and NOISE in requests of its cylinder, and in TOOTH requests of target 0. -/
def State.noticeCompletion (s : State) (t : Stamp) (cyl : Cyl) (mv : MisfireVerdict) (kv : KnockVerdict) : State :=
  s.latchAll t fun r =>
    if r.target = some cyl ∨ (r.kind = .tooth ∧ r.target = none) then
      (if kv = .knock then condKnock else 0) ||| (if mv = .misfire then condMisfire else 0) |||
        (if kv = .noise then condNoise else 0)
    else 0

/-- R160: the entry to FULL_SYNC latches FULL_SYNC. -/
def State.noticeFullSync (s : State) (t : Stamp) : State := s.latchAll t fun _ => condFullSync

/-- The flags word of a header (section 9.6): bit 4 the sensor; the marks are set as they come. -/
def headerFlags (σ : Sensor) : Half := BitVec.ofNat 16 (16 * σ.number)

/-- R163: a knock window open notice. In a KNOCK_RAW capture of that cylinder it reserves and writes a header, or ends the
capture TRUNCATED when fewer than 4 words are free. -/
def State.noticeOpen (s : State) (t : Stamp) (σ : Sensor) (cyl : Cyl) (cycle : Half) (g : Gain) : State :=
  match s.cap.fillingAs .knockRaw with
  | none => s
  | some r =>
    if r.target = some cyl then
      if Config.captureWords < s.cap.mem.held + 4 then s.endFilling t .truncated
      else
        s.modCap fun c =>
          { c with
            window := some ⟨σ, c.mem.held⟩
            mem := ⟨c.mem.words ++ [cycle, BitVec.ofNat 16 g.value, 0, headerFlags σ]⟩ }
    else s

/-- The window being recorded on a sensor, with the request it is recorded for. -/
def Cap.recordingOn (c : Cap) (σ : Sensor) : Option (Request × CapWindow) :=
  match c.fillingAs .knockRaw, c.window with
  | some r, some w => if w.sensor = σ then some (r, w) else none
  | _, _ => none

/-- Close the recorded window: set marks in its header and count one cycle (R163, R164). -/
def Cap.closeWindow (c : Cap) (w : CapWindow) (marks : Half) : Cap :=
  { c with mem := c.mem.patch (w.header + 3) (· ||| marks), recorded := c.recorded + 1, window := none }

/-- R163, R164: a raw sample of the recorded window is stored and counted in the header; a sample that finds the memory full
marks MEM_SHORT and ends the capture TRUNCATED. -/
def State.noticeSample (s : State) (t : Stamp) (σ : Sensor) (raw : Half) : State :=
  match s.cap.recordingOn σ with
  | none => s
  | some (_, w) =>
    if s.cap.mem.held < Config.captureWords then
      s.modCap fun c => { c with mem := (c.mem.push raw).patch (w.header + 2) (· + 1) }
    else (s.modCap fun c => c.closeWindow w 0x0004).endFilling t .truncated

/-- End a KNOCK_RAW capture READY when the cycles recorded equal the count (R163). -/
def State.readyAtCount (s : State) (t : Stamp) (count : Nat) : State :=
  if s.cap.recorded = count then s.endFilling t .ready else s

/-- R163: a knock window close notice writes CLIPPED and NO_WINDOW into the header and counts the cycle. -/
def State.noticeClose (s : State) (t : Stamp) (σ : Sensor) (clipped noWindow : Bool) : State :=
  match s.cap.recordingOn σ with
  | none => s
  | some (r, w) =>
    (s.modCap fun c => c.closeWindow w ((if clipped then 0x0001 else 0) ||| (if noWindow then 0x0002 else 0))).readyAtCount
      t r.count

/-- R164: an abandon notice sets ABANDONED in the header, keeps the samples and counts the cycle. At a LAYOUT apply whose new
run list keeps the target the capture may thereby reach its count. -/
def State.noticeAbandon (s : State) (t : Stamp) (σ : Sensor) (atLayout : Bool) : State :=
  match s.cap.recordingOn σ with
  | none => s
  | some (r, w) =>
    let s' := s.modCap fun c => c.closeWindow w 0x0008
    if atLayout && r.target.any s.cfg.active.hasCyl then s'.readyAtCount t r.count else s'

/-- R166: a sync loss event ends a KNOCK_RAW capture that has recorded at least one header. A window still open is marked
ABANDONED as the capture ends, and counts (R164; the count is the model's choice, assumption log 24). -/
def State.capSyncLoss (s : State) (t : Stamp) : State :=
  match s.cap.fillingAs .knockRaw with
  | none => s
  | some _ =>
    if s.cap.mem.held = 0 then s
    else
      match s.cap.window with
      | some w => (s.modCap fun c => c.closeWindow w 0x0008).endFilling t .truncated
      | none => s.endFilling t .truncated

/-- R166: a crank loss event ends a TOOTH capture that has started. -/
def State.capCrankLoss (s : State) (t : Stamp) : State :=
  match s.cap.fillingAs .tooth with
  | none => s
  | some _ => if s.cap.started then s.endFilling t .truncated else s

/-- R165: an accepted period handed by ADEC is written to the next free word, 65,535 at most. -/
def State.noticePeriod (s : State) (period : Nat) : State :=
  match s.cap.fillingAs .tooth with
  | none => s
  | some _ =>
    if s.cap.started then s.modCap fun c => { c with mem := c.mem.push (BitVec.ofNat 16 (min 65535 period)) } else s

/-- R165: a gap end handed by ADEC starts a TOOTH capture, or counts one revolution of it. -/
def State.noticeGapEnd (s : State) (t : Stamp) : State :=
  match s.cap.fillingAs .tooth with
  | none => s
  | some r =>
    if s.cap.started then (s.modCap fun c => { c with recorded := c.recorded + 1 }).readyAtCount t r.count
    else s.modCap fun c => { c with started := true }

/-- R173: the run-list rule. A KNOCK_RAW capture that is FILLING ends TRUNCATED when its target is not in the new active run
list; a window of it still open is marked ABANDONED, and counts (assumption log 24, with the order of the abandon and the apply). -/
def State.capRunList (s : State) (t : Stamp) : State :=
  match s.cap.fillingAs .knockRaw with
  | none => s
  | some r =>
    if r.target.any s.cfg.active.hasCyl then s
    else
      match s.cap.window with
      | some w => (s.modCap fun c => c.closeWindow w 0x0008).endFilling t .truncated
      | none => s.endFilling t .truncated

/-- R173: at a GEOMETRY apply every WAITING and TRIGGERED request returns to WAITING, its latches cleared, and re-arms. -/
def State.capGeometry (s : State) (t : Stamp) : State :=
  (s.modCap fun c =>
    { c with requests := c.requests.map fun r => if r.state = .active then r else r.rearm (armConds s) }).grant t

end Sys2Proof.Machine
end

