-- ==== Sys2Proof/Machine/CylTable.lean ====
section
/-! DEFINITION. The cylinder table (chapter 7): the pending assessment list, completion, published entries and their
rewrites. -/

namespace Sys2Proof.Machine

/-- Whether an entry of the list is the instance named by a slot index and an instance cycle number (R131). -/
def SlotInst.named (i : SlotInst) (slot : Nat) (cycle : Half) : Bool :=
  decide (i.slot = slot) && decide (i.cycle = cycle)

/-- The instance of a name in the pending assessment list (R131). -/
def Cyt.find (c : Cyt) (slot : Nat) (cycle : Half) : Option SlotInst :=
  c.pendingList.find? fun i => i.named slot cycle

/-- Write one part of the instance of a name; a part that names an instance not in the list is not written (R133). -/
def Cyt.write (c : Cyt) (slot : Nat) (cycle : Half) (f : SlotInst → SlotInst) : Cyt :=
  { c with pendingList := c.pendingList.map fun i => if i.named slot cycle then f i else i }

/-- Remove the instance of a name; the others keep their order (R131). -/
def Cyt.remove (c : Cyt) (slot : Nat) (cycle : Half) : Cyt :=
  { c with pendingList := c.pendingList.filter fun i => !i.named slot cycle }

/-- Discard the list (R135). -/
def Cyt.discard (c : Cyt) : Cyt := { c with pendingList := [] }

/-- Change the cylinder table. -/
def State.modCyt (s : State) (f : Cyt → Cyt) : State := s.setCyt (f s.cyt)

/-- The entry an instance opens with (R132). -/
def openInst (img : Image) (slot : Nat) (cycle : Half) : SlotInst :=
  let r := img.row (img.slotRow slot)
  { slot, cycle, row := img.slotRow slot, cyl := r.cyl, sensor := r.sensor,
    snapshot := none, spark := none, knockPlace := none,
    guardPlace := if r.guardLen = 0 then .notConfigured else .empty, misfire := none, knock := none }

/-- The front-end part is complete: the knock place holds a result, and the guard place a result or NOT_CONFIGURED (R95). -/
def SlotInst.frontComplete (i : SlotInst) : Bool := i.knockPlace.isSome && decide (i.guardPlace ≠ .empty)

/-- The snapshot of an instance that is decided or completes. It is always present there (R62, R107); an absent one reads as set A,
band 0 and STALE (assumption log 8). -/
def SlotInst.snap (i : SlotInst) : Snapshot := i.snapshot.getD ⟨.setA, 0, true, false⟩

/-- The spark part of an instance that completes. It is always present there (R107); an absent one reads as both parts absent
(assumption log 8). -/
def SlotInst.sparkPart (i : SlotInst) : SparkPart := i.spark.getD ⟨none, none⟩

/-- The lifetime counters after a completion (R140). -/
def Lifetime.count (l : Lifetime) (mv : MisfireVerdict) (kv : KnockVerdict) (cut : Option CutReason) : Lifetime where
  misfires := if mv = .misfire then bump 65535 l.misfires else l.misfires
  knocks := if kv = .knock then bump 65535 l.knocks else l.knocks
  noise := if kv = .noise then bump 65535 l.noise else l.noise
  cuts := if cut.isSome then bump 65535 l.cuts else l.cuts

/-- R138, R140: the published entry of a completed instance: every field is replaced, the in-use mark stays, and the lifetime
counters are kept and updated. -/
def publish (old : Entry) (i : SlotInst) (m : MisfirePart) (k : KnockPart) (c : KnockCounts) : Entry where
  inUse := old.inUse
  assessed := true
  row := i.row
  cycle := i.cycle
  misfire := m.judged
  cons := m.cons
  block := m.block
  knock := k.judged
  ref := k.ref
  retard := c.retard
  recovery := c.recovery
  spark := i.sparkPart
  set := i.snap.set
  stale := i.snap.stale
  life := old.life.count m.judged.verdict k.judged.verdict i.sparkPart.cut

/-- The SLOT record of a completion (R141). -/
def slotRecord (t : Stamp) (i : SlotInst) (m : MisfirePart) (k : KnockPart) (c : KnockCounts) : Record where
  cyl := some i.cyl
  cycle := i.cycle
  stamp := t
  body := .slot i.row m.judged k.judged c.retard c.recovery i.sparkPart i.snap.set i.snap.stale

/-- R134: CYT completes an instance: entry, counters, SLOT record, completion notice, removal. -/
def State.complete (s : State) (t : Stamp) (i : SlotInst) (m : MisfirePart) (k : KnockPart) : State :=
  let c := s.kna.cyl.get i.cyl
  let s1 := s.modCyt fun y => { y with entry := y.entry.set i.cyl (publish (y.entry.get i.cyl) i m k c) }
  let s2 := s1.emit (slotRecord t i m k c)
  let s3 := s2.noticeCompletion t i.cyl m.judged.verdict k.judged.verdict
  s3.modCyt fun y => y.remove i.slot i.cycle

/-- R133: the completion test after the write of a misfire part or a knock part. -/
def State.tryComplete (s : State) (t : Stamp) (slot : Nat) (cycle : Half) : State :=
  match s.cyt.find slot cycle with
  | none => s
  | some i =>
    match i.misfire, i.knock with
    | some m, some k => s.complete t i m k
    | _, _ => s

/-- R139: rewrite the retard and recovery count fields of a published entry. -/
def Entry.rewrite (e : Entry) (retard recovery : Nat) : Entry := { e with retard := retard, recovery := recovery }

end Sys2Proof.Machine
end

