-- ==== Sys2Proof/Machine/Knock.lean ====
section
/-! DEFINITION. The knock assessor KNA (chapter 6) and the knock front end KFE (chapter 5): the knock decision, the windows and
integrators, auto-ranging and the samples. -/

namespace Sys2Proof.Machine

/-! ### The knock decision (sections 6.3 to 6.7) -/

/-- R113, R116: a reference moves towards a value by the difference divided by 2^s, truncated toward zero, and is clamped to the
range from the floor to 2,097,120. -/
def adaptRef (img : Image) (ref x : Nat) : Nat :=
  clamp img.refFloor refCeiling ((ref : Int) + Int.tdiv ((x : Int) - ref) (2 ^ img.adaptShift))

/-- What a knock decision does: KNA's state after it, the judgement, and the record it emits. -/
structure KnockDecision where
  kna : Kna
  judged : KnockJudged
  record : Option RecordBody
  deriving DecidableEq, Repr

/-- The inputs of a knock decision (R108). -/
structure KnockInputs where
  overspeed : Bool
  band : Nat
  cut : Option CutReason
  set : ThrSet
  cyl : Cyl
  sensor : Sensor
  knock : KnockResult
  guard : GuardPlace
  deriving DecidableEq, Repr

/-- The guard state of a guard place (R118). -/
def GuardPlace.state : GuardPlace → GuardState
  | .empty | .notConfigured => .notConfigured
  | .result r => r.state

/-- G_n of a VALID guard result; VOID, SHORT and NOT_CONFIGURED carry none (R94, R112). -/
def GuardPlace.gn : GuardPlace → Option Nat
  | .result r => if r.state = .valid then r.gn else none
  | _ => none

/-- The judgement of a verdict that forms neither K nor the guard ratio: I_n and the gain are carried (R109 to R111). -/
def KnockInputs.judged (x : KnockInputs) (v : KnockVerdict) (reason : Option KnockReason) (k q : Option Nat) : KnockJudged where
  verdict := v
  reason := reason
  k := k
  inorm := x.knock.inorm
  gain := x.knock.gain
  guard := x.guard.state
  q := q

/-- The guard ratio Q = min(65,535, trunc(G_n × 256 / max(GREF, floor))) (R112). -/
def guardRatio (img : Image) (gref gn : Nat) : Nat := min 65535 (gn * 256 / max gref img.refFloor)

/-- The knock ratio K = min(65,535, trunc(I_n × 256 / REF)) (R114). -/
def knockRatio (ref inorm : Nat) : Nat := min 65535 (inorm * 256 / ref)

/-- The knock threshold of a set at a speed band (R114). -/
def Image.knockThr (img : Image) (set : ThrSet) (band : Nat) : Nat := vget 0 (img.knockTable set) band

/-- R115: the retard step of a KNOCK verdict, doubled at or above twice the threshold. -/
def Image.stepFor (img : Image) (k thr : Nat) : Nat :=
  if 2 * thr ≤ k then 2 * img.retardStep else img.retardStep

/-- R115: a cylinder's state after a KNOCK verdict. -/
def KnockCounts.afterKnock (c : KnockCounts) (img : Image) (step : Nat) : KnockCounts :=
  { c with retard := min img.retardMax (c.retard + step), recovery := 0 }

/-- R116, R117: a cylinder's state after a CLEAN verdict: REF adapts, and the recovery step is taken. -/
def KnockCounts.afterClean (c : KnockCounts) (img : Image) (inorm : Nat) : KnockCounts :=
  if img.recoveryCycles ≤ c.recovery + 1 then
    { ref := adaptRef img c.ref inorm, retard := c.retard - img.recoveryStep, recovery := 0 }
  else { c with ref := adaptRef img c.ref inorm, recovery := c.recovery + 1 }

/-- R114 to R117: the knock ratio and its verdict, once the guard test has been passed or not made. -/
def judgeRatio (img : Image) (kna : Kna) (x : KnockInputs) (q : Option Nat) : KnockDecision :=
  let c := kna.cyl.get x.cyl
  let inorm := orZero x.knock.inorm
  let k := knockRatio c.ref inorm
  let thr := img.knockThr x.set x.band
  if thr ≤ k then
    let c' := c.afterKnock img (img.stepFor k thr)
    { kna := { kna with cyl := kna.cyl.set x.cyl c' }
      judged := x.judged .knock none (some k) q
      record := some (.knock k inorm c'.retard (img.stepFor k thr) x.set) }
  else
    { kna := { kna with cyl := kna.cyl.set x.cyl (c.afterClean img inorm) }
      judged := x.judged .clean none (some k) q
      record := none }

/-- The verdict order of section 6.4: R109, R110, R111, the guard test of R112 and R113, then the knock ratio. -/
def judgeKnock (img : Image) (kna : Kna) (x : KnockInputs) : KnockDecision :=
  let held := fun (j : KnockJudged) => ({ kna := kna, judged := j, record := none } : KnockDecision)
  if x.overspeed then held (x.judged .notAssessed (some .overspeed) none none)
  else if x.cut.isSome then held (x.judged .notAssessed (some .cut) none none)
  else if x.knock.noWindow then held (x.judged .noWindow none none none)
  else if x.knock.clipped then held (x.judged .clipped none none none)
  else
    match x.guard.gn with
    | none => judgeRatio img kna x none
    | some gn =>
      let gref := kna.gref.get x.sensor
      let q := guardRatio img gref gn
      if img.guardThr ≤ q then
        { kna := kna, judged := x.judged .noise none none (some q), record := some (.noise x.sensor q gn) }
      else judgeRatio img { kna with gref := kna.gref.set x.sensor (adaptRef img gref gn) } x (some q)

/-- Emit an optional record of an instance. -/
def State.emitFor (s : State) (t : Stamp) (cyl : Cyl) (cycle : Half) (body : Option RecordBody) : State :=
  match body with
  | none => s
  | some b => s.emit { cyl := some cyl, cycle := cycle, stamp := t, body := b }

/-- R118: the order in which KNA acts: state, record, knock part, and CYT's completion test (R133). -/
def State.applyKnock (s : State) (t : Stamp) (i : SlotInst) (d : KnockDecision) : State :=
  (((s.setKna d.kna).emitFor t i.cyl i.cycle d.record).modCyt fun y =>
      y.write i.slot i.cycle fun j => { j with knock := some ⟨d.judged, (d.kna.cyl.get i.cyl).ref⟩ }).tryComplete
    t i.slot i.cycle

/-- R107: KNA decides an instance when its front-end part is complete and its spark part present, once. -/
def State.tryKnock (s : State) (t : Stamp) (slot : Nat) (cycle : Half) : State :=
  match s.cyt.find slot cycle with
  | none => s
  | some i =>
    match i.knockPlace, i.spark, i.knock with
    | some kr, some sp, none =>
      if i.frontComplete then
        s.applyKnock t i
          (judgeKnock s.cfg.active s.kna
            { overspeed := s.adec.overspeed, band := s.adec.band, cut := sp.cut, set := i.snap.set, cyl := i.cyl,
              sensor := i.sensor, knock := kr, guard := i.guardPlace })
      else s
    | _, _, _ => s

/-! ### Windows and integrators (section 5.2) -/

/-- Change one sensor's chain. -/
def State.modChain (s : State) (σ : Sensor) (f : SensorChain → SensorChain) : State :=
  s.setKfe { s.kfe with chain := s.kfe.chain.set σ (f (s.kfe.chain.get σ)) }

/-- A row's gain in use and low-run count (R97). -/
def Kfe.rowGain (k : Kfe) (r : Nat) : RowGain := vget ⟨.g8, 0⟩ k.rows r

/-- R90: a knock window open sets the stage gain and opens the knock integrator; when it changes the stage gain and the new
gain differs from the open guard integrator's, that integrator's void mark is set. -/
def SensorChain.openKnock (c : SensorChain) (g : Gain) (slot : Nat) (cycle : Half) (row : Nat) (cyl : Cyl) : SensorChain :=
  { c with
    stage := g
    knock := some { slot, cycle, row, cyl, gain := g, n := 0, sum := 0, clip := false }
    guard := c.guard.map fun q => if g ≠ c.stage ∧ g ≠ q.gain then { q with void := true } else q }

/-- R87, R91: a guard window open sets the stage gain when no knock window is open on the sensor, and opens the guard integrator
with the stage gain after the open. -/
def SensorChain.openGuard (c : SensorChain) (g : Gain) (slot : Nat) (cycle : Half) (row : Nat) (cyl : Cyl) : SensorChain :=
  let stage := if c.knock.isSome then c.stage else g
  { c with
    stage := stage
    guard := some { slot, cycle, row, cyl, gain := stage, n := 0, sum := 0, void := false } }

/-- The integrated value of a window: min(65,535, trunc(2 × sum / n)) (R93, R94). -/
def integrated (sum n : Nat) : Nat := min 65535 (2 * sum / n)

/-- A value normalised to gain 32: × 32 / g, exactly (R93). -/
def normalised (i : Nat) (g : Gain) : Nat := i * (32 / g.value)

/-- R93: the knock window result of an integrator. -/
def KnockIntegrator.result (k : KnockIntegrator) : KnockResult :=
  let i := if k.n < 4 then none else some (integrated k.sum k.n)
  { n := k.n, noWindow := decide (k.n < 4), clipped := k.clip, i := i,
    inorm := i.map fun v => normalised v k.gain, gain := k.gain }

/-- R94: the guard window result of an integrator. -/
def GuardIntegrator.result (q : GuardIntegrator) : GuardResult :=
  if q.void then { state := .void, gn := none, n := q.n, gain := q.gain }
  else if q.n < 4 then { state := .short, gn := none, n := q.n, gain := q.gain }
  else { state := .valid, gn := some (normalised (integrated q.sum q.n) q.gain), n := q.n, gain := q.gain }

/-- R99: the auto-range step of a row at a knock window close, as the row's new gain and count and the cause of a step. -/
def autoRangeStep (r : RowGain) (k : KnockResult) : RowGain × Option GainCause :=
  if k.clipped then
    if r.gain = .g1 then (⟨r.gain, 0⟩, none) else (⟨r.gain.down, 0⟩, some .clip)
  else
    match k.i with
    | none => (r, none)
    | some i =>
      if 1024 ≤ i then (⟨r.gain, 0⟩, none)
      else if r.lowRun + 1 < 16 then (⟨r.gain, r.lowRun + 1⟩, none)
      else if r.gain = .g32 then (⟨r.gain, 0⟩, none)
      else (⟨r.gain.up, 0⟩, some .low)

/-- R99, R100: the auto-range step at a knock window close, taken when the row's auto-range is on and its gain in use is still the
gain the window recorded; a step emits a GAIN record. -/
def State.autoRange (s : State) (t : Stamp) (σ : Sensor) (k : KnockIntegrator) : State :=
  let r := s.kfe.rowGain k.row
  if (s.cfg.active.row k.row).autoRange = true ∧ r.gain = k.gain then
    let d := autoRangeStep r k.result
    (s.setKfe { s.kfe with rows := vset s.kfe.rows k.row d.1 }).emitFor t k.cyl k.cycle
      (d.2.map fun cause => .gain σ k.row r.gain d.1.gain cause)
  else s

/-- R90, R101: a knock window opens, and the open is handed to the capture unit. -/
def State.knockOpen (s : State) (t : Stamp) (slot : Nat) (cycle : Half) : State :=
  let row := s.cfg.active.slotRow slot
  let r := s.cfg.active.row row
  let g := (s.kfe.rowGain row).gain
  (s.modChain r.sensor fun c => c.openKnock g slot cycle row r.cyl).noticeOpen t r.sensor r.cyl cycle g

/-- R91: a guard window opens. -/
def State.guardOpen (s : State) (slot : Nat) (cycle : Half) : State :=
  let row := s.cfg.active.slotRow slot
  let r := s.cfg.active.row row
  s.modChain r.sensor fun c => c.openGuard (s.kfe.rowGain row).gain slot cycle row r.cyl

/-- R93: a knock window closes: result, auto-range step, close notice, integrator closed, result written (R95). -/
def State.knockClose (s : State) (t : Stamp) (slot : Nat) : State :=
  let σ := (s.cfg.active.row (s.cfg.active.slotRow slot)).sensor
  match (s.kfe.chain.get σ).knock with
  | none => s
  | some k =>
    (((((s.autoRange t σ k).noticeClose t σ k.result.clipped k.result.noWindow).modChain σ fun c =>
        { c with knock := none }).modCyt fun y =>
          y.write k.slot k.cycle fun i => { i with knockPlace := some k.result })).tryKnock t k.slot k.cycle

/-- R94: a guard window closes: result, integrator closed, result written (R95). -/
def State.guardClose (s : State) (t : Stamp) (slot : Nat) : State :=
  let σ := (s.cfg.active.row (s.cfg.active.slotRow slot)).sensor
  match (s.kfe.chain.get σ).guard with
  | none => s
  | some q =>
    ((s.modChain σ fun c => { c with guard := none }).modCyt fun y =>
        y.write q.slot q.cycle fun i => { i with guardPlace := .result q.result }).tryKnock t q.slot q.cycle

/-- R98: close and discard a sensor's integrators; a knock integrator hands an abandon to the capture unit. -/
def State.abandonSensor (s : State) (t : Stamp) (σ : Sensor) (atLayout : Bool) : State :=
  let s' := s.modChain σ fun c => { c with knock := none, guard := none }
  if (s.kfe.chain.get σ).knock.isSome then s'.noticeAbandon t σ atLayout else s'

/-- R98: close and discard every open integrator of both sensors. -/
def State.abandonWindows (s : State) (t : Stamp) (atLayout : Bool) : State :=
  (s.abandonSensor t .ks0 atLayout).abandonSensor t .ks1 atLayout

/-! ### Samples (R86, R92) -/

/-- |y| of a filtered value, 0 to 32,768 (R92). -/
def magnitude (y : Half) : Nat := y.toInt.natAbs

/-- A raw sample at a limit of the converter, −32,768 or +32,767 (R92). -/
def atLimit (raw : Half) : Bool := decide (raw = 0x8000) || decide (raw = 0x7FFF)

/-- R92: a sample of filtered value `y` counted in a knock integrator. -/
def KnockIntegrator.count (k : KnockIntegrator) (y raw : Half) : KnockIntegrator :=
  { k with n := k.n + 1, sum := k.sum + magnitude y, clip := k.clip || atLimit raw }

/-- R92: a sample of filtered value `y` counted in a guard integrator. -/
def GuardIntegrator.count (q : GuardIntegrator) (y : Half) : GuardIntegrator :=
  { q with n := q.n + 1, sum := q.sum + magnitude y }

/-- R86, R92: one raw sample through a chain: the band filter, then the open integrators. -/
def SensorChain.sample (c : SensorChain) (centre : Nat) (raw : Half) : SensorChain :=
  let y := Config.filterOut centre c.filter raw
  { c with
    filter := Config.filterNext centre c.filter raw
    knock := c.knock.map fun k => k.count y raw
    guard := c.guard.map fun q => q.count y }

/-- R92, R101: one sensor's sample; the raw sample goes to the capture unit exactly when the knock integrator counts it. -/
def State.sampleSensor (s : State) (t : Stamp) (σ : Sensor) (raw : Half) : State :=
  let s' := s.modChain σ fun c => c.sample (s.cfg.active.centre σ) raw
  if (s.kfe.chain.get σ).knock.isSome then s'.noticeSample t σ raw else s'

/-- R86: whether stamp `t` is a sample instant: a whole number of 20-tick spacings after the last one. -/
def Kfe.sampleDue (k : Kfe) (t : Stamp) : Bool :=
  decide (0 < elapsed t k.lastSample) && decide (elapsed t k.lastSample % Config.samplePeriod = 0)

/-- R86: the converters' samples at a sample instant, sensor 0 and then sensor 1. -/
def State.sample (s : State) (t : Stamp) (raw0 raw1 : Half) : State :=
  ((s.setKfe { s.kfe with lastSample := t }).sampleSensor t .ks0 raw0).sampleSensor t .ks1 raw1

end Sys2Proof.Machine
end

