-- ==== Sys2Proof/Machine/Misfire.lean ====
section
/-! DEFINITION. The misfire assessor MFA (chapter 4): segments, the decision, the counts and the block. -/

namespace Sys2Proof.Machine

/-! ### Names of neighbouring instances (R61, R63) -/

/-- The instance before an instance: slot n − 1 of the cycle before for slot 0 (R63). -/
def prevInst (n slot : Nat) (cycle : Half) : Nat × Half :=
  if slot = 0 then (n - 1, cycle - 1) else (slot - 1, cycle)

/-- The instance after an instance: slot 0 of the next cycle for slot n − 1 (R63). -/
def nextInst (n slot : Nat) (cycle : Half) : Nat × Half :=
  if slot + 1 = n then (0, cycle + 1) else (slot + 1, cycle)

/-- R61: the instance decided at the segment boundary of slot `j` with instance cycle number `c`: two slots before. -/
def decidedInst (n j : Nat) (c : Half) : Nat × Half :=
  if 2 ≤ j then (j - 2, c) else (n + j - 2, c - 1)

/-! ### Segments (R60) -/

/-- R60, step 1: close the open record, T being the boundary's stamp minus its start stamp. -/
def Segment.close (t : Stamp) (g : Segment) : Segment :=
  match g.time with
  | none => { g with time := some (elapsed t g.start) }
  | some _ => g

/-- The closed records of a segment list. -/
def closedSegments (l : List Segment) : List Segment := l.filter fun g => g.time.isSome

/-- R60, steps 3 and 4: open a new record, and remove the oldest while more than three records are closed. -/
def openSegment (l : List Segment) (slot : Nat) (cycle : Half) (t : Stamp) : List Segment :=
  (if 3 < (closedSegments l).length then l.drop 1 else l) ++ [{ slot, cycle, start := t, time := none }]

/-- The segment time known for an instance (R60). -/
def segmentTime (l : List Segment) (name : Nat × Half) : Option Nat :=
  (l.find? fun g => decide (g.slot = name.1) && decide (g.cycle = name.2) && g.time.isSome).bind (·.time)

/-! ### The deceleration index and the limit (sections 4.4 and 4.5) -/

/-- R67: twice the excess of segment k over its neighbours, by the cut states of slots k − 1 and k + 1; none when both are CUT. -/
def excess2 (cutPrev cutNext : Bool) (tPrev tk tNext : Nat) : Option Int :=
  match cutPrev, cutNext with
  | false, false => some (2 * (tk : Int) - tPrev - tNext)
  | true, false => some (2 * (tk : Int) - 2 * tNext)
  | false, true => some (2 * (tk : Int) - 2 * tPrev)
  | true, true => none

/-- R67: D = trunc(2E × 32,768 / T_k), saturated to −32,767 to +32,767. -/
def decelIndex (e2 : Int) (tk : Nat) : Int := max (-32767) (min 32767 (Int.tdiv (e2 * 32768) tk))

/-- The largest value of a list, 0 for the empty list. -/
def largest (l : List Nat) : Nat := l.foldl max 0

/-- R68: the road index of a roughness history. -/
def roadIndex (l : List Nat) : Nat := if l.length < 8 then 0 else (l.sum - largest l) / 7

/-- R68: append a value at the newest end; of nine values the oldest is removed. -/
def appendHistory (l : List Nat) (v : Nat) : List Nat := if l.length < 8 then l ++ [v] else l.drop 1 ++ [v]

/-- R69: the base limit of a speed band and a snapshot; STALE takes the largest of the band's four entries. -/
def Image.baseLimit (img : Image) (band : Nat) (snap : Snapshot) : Nat :=
  let at_ := fun (load : Nat) => vget 0 (img.misfireTable snap.set) (4 * band + load)
  if snap.stale then max (max (at_ 0) (at_ 1)) (max (at_ 2) (at_ 3)) else at_ snap.band

/-- R70: the effective limit. -/
def Image.effLimit (img : Image) (base w : Nat) : Nat := min 32767 (base + w * img.roughGain / 16)

/-- The inputs of a misfire decision (R62). -/
structure MisfireInputs where
  rpm : Nat
  band : Nat
  snap : Snapshot
  cut : Option CutReason
  cutPrev : Bool
  cutNext : Bool
  tPrev : Option Nat
  tk : Option Nat
  tNext : Option Nat
  history : List Nat
  deriving DecidableEq, Repr

/-- A misfire judgement that computes no D. -/
def plainMisfire (v : MisfireVerdict) (reason : Option MisfireReason) : MisfireJudged := ⟨v, reason, none⟩

/-- The reason of a CUT verdict is the cut reason (R66). -/
def reasonOfCut : CutReason → MisfireReason
  | .spark => .spark
  | .fuel => .fuel

/-- R68 to R71: the verdict of an instance whose D is computed. -/
def judgeIndex (img : Image) (x : MisfireInputs) (d : Int) : MisfireJudged :=
  let w := roadIndex x.history
  let limit := img.effLimit (img.baseLimit x.band x.snap) w
  { verdict := if img.roughCeiling < w then .rough else if (limit : Int) < d then .misfire else .noMisfire
    reason := none
    index := some ⟨d, limit, w⟩ }

/-- The verdict order of section 4.4: R64, R65, R66, R67, then R71. -/
def judgeMisfire (img : Image) (x : MisfireInputs) : MisfireJudged :=
  match x.tPrev, x.tk, x.tNext with
  | some tPrev, some tk, some tNext =>
    if x.rpm < img.minSpeed then plainMisfire .notAssessed (some .lowSpeed)
    else if 10000 < x.rpm then plainMisfire .notAssessed (some .overspeed)
    else
      match x.cut with
      | some c => plainMisfire .cut (some (reasonOfCut c))
      | none =>
        match excess2 x.cutPrev x.cutNext tPrev tk tNext with
        | none => plainMisfire .neighborCut none
        | some e2 => judgeIndex img x (decelIndex e2 tk)
  | _, _, _ => plainMisfire .notAssessed (some .warmup)

/-! ### The decision (sections 4.3, 4.6 and 4.8) -/

/-- R73, R74, R75: a cylinder's counts after a verdict. -/
def MisfireCounts.after (c : MisfireCounts) (img : Image) : MisfireVerdict → MisfireCounts
  | .misfire =>
    { cons := bump 255 c.cons
      persist := c.persist || decide (img.consLimit ≤ bump 255 c.cons)
      block := bump 1000 c.block }
  | .noMisfire => { c with cons := 0, persist := false }
  | _ => c

/-- R74: whether a verdict emits a PERSIST record. -/
def MisfireCounts.persists (c : MisfireCounts) (img : Image) (v : MisfireVerdict) : Bool :=
  decide (v = .misfire) && !c.persist && decide (img.consLimit ≤ bump 255 c.cons)

/-- The roughness history after a judgement: |D| is appended when D was computed (R68, R72). -/
def historyAfter (l : List Nat) (j : MisfireJudged) : List Nat :=
  match j.index with
  | some x => appendHistory l x.d.natAbs
  | none => l

/-- Change the misfire assessor. -/
def State.modMfa (s : State) (f : Mfa → Mfa) : State := s.setMfa (f s.mfa)

/-- R72: the order in which MFA acts on a verdict: counts, history, last decided record, records, misfire part; then CYT's
completion test (R133). -/
def State.applyMisfire (s : State) (t : Stamp) (i : SlotInst) (j : MisfireJudged) : State :=
  let old := s.mfa.counts.get i.cyl
  let new := old.after s.cfg.active j.verdict
  let s1 := s.modMfa fun m =>
    { m with counts := m.counts.set i.cyl new, history := historyAfter m.history j,
             last := some ⟨i.slot, i.cycle, (i.spark.bind (·.cut)).isSome⟩ }
  let s2 := match j.verdict, j.index with
    | .misfire, some x =>
      s1.emit { cyl := some i.cyl, cycle := i.cycle, stamp := t,
                body := .misfire x.d x.limit new.cons i.snap.set i.snap.stale }
    | _, _ => s1
  let s3 := if old.persists s.cfg.active j.verdict then
      s2.emit { cyl := some i.cyl, cycle := i.cycle, stamp := t, body := .persist new.cons s.cfg.active.consLimit }
    else s2
  (s3.modCyt fun y => y.write i.slot i.cycle fun k => { k with misfire := some ⟨j, new.cons, new.block⟩ }).tryComplete
    t i.slot i.cycle

/-- R63: slot k − 1 is CUT when the last decided record names that instance with its cut mark set. -/
def leftCut (last : Option LastDecided) (name : Nat × Half) : Bool :=
  match last with
  | some l => decide (l.slot = name.1) && decide (l.cycle = name.2) && l.cut
  | none => false

/-- R63: slot k + 1 is CUT when its instance is in the pending list with its cut reason present. -/
def rightCut (c : Cyt) (name : Nat × Half) : Bool :=
  match c.find name.1 name.2 with
  | some i => (i.spark.bind (·.cut)).isSome
  | none => false

/-- The inputs of the decision of an instance as they stand (R62). -/
def State.misfireInputs (s : State) (i : SlotInst) : MisfireInputs :=
  let n := s.cfg.active.slots
  let before := prevInst n i.slot i.cycle
  let after := nextInst n i.slot i.cycle
  { rpm := s.adec.rpm, band := s.adec.band, snap := i.snap, cut := i.spark.bind (·.cut),
    cutPrev := leftCut s.mfa.last before, cutNext := rightCut s.cyt after,
    tPrev := segmentTime s.mfa.segments before, tk := segmentTime s.mfa.segments (i.slot, i.cycle),
    tNext := segmentTime s.mfa.segments after, history := s.mfa.history }

/-- R61: the decision at the segment boundary of slot `j`, for the instance two slots before, if it is in the list without a
misfire part. -/
def State.decideMisfire (s : State) (t : Stamp) (j : Nat) (c : Half) : State :=
  let name := decidedInst s.cfg.active.slots j c
  match s.cyt.find name.1 name.2 with
  | none => s
  | some i => if i.misfire.isSome then s else s.applyMisfire t i (judgeMisfire s.cfg.active (s.misfireInputs i))

/-- R60: a segment boundary of slot `j` is handed to MFA. -/
def State.segmentBoundary (s : State) (t : Stamp) (j : Nat) (c : Half) : State :=
  ((s.modMfa fun m => { m with segments := m.segments.map (·.close t) }).decideMisfire t j c).modMfa fun m =>
    { m with segments := openSegment m.segments j c t }

/-- R81: one instance of the list decided NOT_ASSESSED WARMUP at a segment offset apply, if its misfire part is absent. -/
def State.forceWarmup (t : Stamp) (s : State) (name : Nat × Half) : State :=
  match s.cyt.find name.1 name.2 with
  | none => s
  | some i => if i.misfire.isSome then s else s.applyMisfire t i (plainMisfire .notAssessed (some .warmup))

/-- R81: a commit that changes the segment offset decides every undecided instance in the list's order, then empties the segment
list. The last decided record is cleared with the list and written by the forced decisions (R63, assumption log 9). -/
def State.segOffsetApply (s : State) (t : Stamp) : State :=
  ((s.cyt.pendingList.map fun i => (i.slot, i.cycle)).foldl (State.forceWarmup t)
      (s.modMfa fun m => { m with last := none })).modMfa fun m => { m with segments := [] }

/-! ### The block (section 4.7) -/

/-- R75: the RATE record of a cylinder at a block end, if its block count is at or above the rate limit. -/
def State.emitRate (t : Stamp) (s : State) (c : Cyl) : State :=
  if s.cfg.active.rateLimit ≤ (s.mfa.counts.get c).block then
    s.emit { cyl := some c, cycle := s.adec.cycle, stamp := t,
             body := .rate (s.mfa.counts.get c).block s.cfg.active.blockLength }
  else s

/-- Clear every block count and the block cycle counter (R75, R76). -/
def Mfa.clearBlock (m : Mfa) : Mfa :=
  { m with blockCycles := 0, counts := m.counts.mapWith fun _ c => { c with block := 0 } }

/-- R75: MFA at a cycle boundary. -/
def State.blockBoundary (s : State) (t : Stamp) : State :=
  if s.cfg.active.blockLength ≤ s.mfa.blockCycles + 1 then
    (allCyls.foldl (State.emitRate t) s).modMfa Mfa.clearBlock
  else s.modMfa fun m => { m with blockCycles := m.blockCycles + 1 }

/-! ### Losses (R78 to R80) -/

/-- R78: a sync loss empties the segment list and the roughness history and clears the last decided record. -/
def Mfa.loseSync (m : Mfa) : Mfa := { m with segments := [], history := [], last := none }

/-- R80: at a LAYOUT or GEOMETRY apply the lists are emptied, and the counts of every cylinder that is not in the new run list
are cleared. -/
def Mfa.newRunList (m : Mfa) (img : Image) : Mfa :=
  { m.loseSync with counts := m.counts.mapWith fun c x => if img.hasCyl c then x else .zero }

end Sys2Proof.Machine
end

