-- ==== Sys2Proof/Machine/OpState.lean ====
section
/-! DEFINITION. The operating state block OPS (chapter 3): declarations, the merged operating state, the threshold set and the
operating snapshot. -/

namespace Sys2Proof.Machine

/-- R49: the line is at its active level when ALSIN is enabled and the held level equals the configured active level. -/
def Ops.lineActive (o : Ops) (img : Image) : Bool :=
  decide (img.alsinEnable = 1) && decide (o.alsin = decide (img.alsinActive = 1))

/-- The declarations held, in port order. -/
def Ops.held (o : Ops) : List Declaration := [o.decl.a, o.decl.b, o.decl.c].filterMap id

/-- R51: the declaration whose load band is used: port A's if held, otherwise B's, otherwise C's. -/
def Ops.chosen (o : Ops) : Option Declaration := o.decl.a.or (o.decl.b.or o.decl.c)

/-- R50, R51: the merged operating state formed anew from the declaration slots and the line. -/
def Ops.merge (o : Ops) (img : Image) : Ops :=
  { o with
    antiLag := o.lineActive img || o.held.any (·.antiLag)
    fuelCut := (o.held.map (·.mask)).foldl (· ||| ·) 0
    band := match o.chosen with
      | some d => d.band
      | none => o.band
    stale := o.chosen.isNone }

/-- Form the merged state anew (section 3.3). -/
def State.mergeOps (s : State) : State := s.setOps (s.ops.merge s.cfg.active)

/-- Replace the declaration slot of a port and form the merged state anew (R46 to R48). -/
def State.setDecl (s : State) (p : Port) (d : Option Declaration) : State :=
  (s.setOps { s.ops with decl := s.ops.decl.set p d }).mergeOps

/-- R52: the set in use and the tail count, evaluated at a cycle boundary. -/
def Ops.boundary (o : Ops) (img : Image) : Ops :=
  if o.antiLag then { o with set := .setB, tail := 0 }
  else
    match o.set with
    | .setB => if img.tailCycles ≤ o.tail + 1 then { o with set := .setA, tail := 0 } else { o with tail := o.tail + 1 }
    | .setA => o

/-- R54: the operating snapshot of a cylinder's instance. -/
def Ops.snapshot (o : Ops) (c : Cyl) : Snapshot where
  set := o.set
  band := o.band
  stale := o.stale
  fuelCut := o.fuelCut.getLsbD (cylBit c)

/-- R47: the ticks left of a declaration, 0 when its duration has passed. -/
def Declaration.left (d : Declaration) (now : Stamp) : Nat := d.duration - elapsed now d.start

end Sys2Proof.Machine
end

