-- ==== Sys2Proof/Machine/Windows.lean ====
section
/-! DEFINITION. The ignition sense unit IGSU (section 3.1), the slot map's cursor and tracked marks (sections 2.4 and 2.5), and the
raising of layout events (R17, R29). -/

namespace Sys2Proof.Machine

/-! ### Ignition sense -/

/-- R42: an angle relative to a slot's TDC, −1,440 to 10,079 and within the spark window −1,440 to +720. -/
def relativeAngle (x tdc : Nat) : Int := ((x : Int) - tdc + 1440) % (Config.cycleUnits : Int) - 1440

/-- R42: a falling edge on the line of an open record without a spark angle is the spark. -/
def SparkRecord.spark (r : SparkRecord) (x : Nat) : SparkRecord :=
  match r.angle with
  | none => { r with angle := some (relativeAngle x r.tdc) }
  | some _ => r

/-- R43: whether a cylinder's line is enabled in the ignition sense enable mask. DEDUCED (assumption log 20): bit 0 of the mask is
cylinder 1, as R46 states for the fuel-cut mask; R43 does not say which bit is which cylinder. -/
def Image.igsEnabled (img : Image) (c : Cyl) : Bool := img.igsMask.testBit (cylBit c)

/-- R43, R44: the spark part formed at a spark window close, from the record, whether the line is enabled, and the fuel-cut mark. -/
def sparkPartOf (enabled fuelCut : Bool) (angle : Option Int) : SparkPart where
  angle := if enabled then angle else none
  cut := if enabled && angle.isNone then some .spark else if fuelCut then some .fuel else none

/-- R41, R132, R33: a slot's spark window opens: tracked mark, IGSU record, pending entry. -/
def State.sparkOpen (s : State) (slot : Nat) (cycle : Half) : State :=
  let img := s.cfg.active
  let c := (img.row (img.slotRow slot)).cyl
  ((s.setSmap { s.smap with marks := vset s.smap.marks slot true }).setIgsu
      (s.igsu.set c (some { slot, cycle, tdc := img.tdc slot, angle := none }))).modCyt fun y =>
    { y with pendingList := y.pendingList ++ [openInst img slot cycle] }

/-- R43: a spark window closes: the spark part is formed, the record closed, and the part handed to CYT, which hands a waiting
instance to KNA (R107). -/
def State.sparkClose (s : State) (t : Stamp) (slot : Nat) : State :=
  let c := (s.cfg.active.row (s.cfg.active.slotRow slot)).cyl
  match s.igsu.get c with
  | none => s
  | some r =>
    let fuelCut := ((s.cyt.find r.slot r.cycle).bind (·.snapshot)).any (·.fuelCut)
    let part := sparkPartOf (s.cfg.active.igsEnabled c) fuelCut r.angle
    ((s.setIgsu (s.igsu.set c none)).modCyt fun y =>
        y.write r.slot r.cycle fun i => { i with spark := some part }).tryKnock t r.slot r.cycle

/-! ### Cursor and marks -/

/-- The tracked mark of a slot (R33). -/
def Smap.marked (m : Smap) (slot : Nat) : Bool := vget false m.marks slot

/-- R31: the cursor positioned on the slot that contains angle `a`, and every tracked mark cleared. -/
def Smap.position (img : Image) (a : Nat) : Smap where
  cursor := some (img.runStart + a / img.slotLen)
  marks := .replicate 6 false

/-- R32: the cursor advances to the next row of the run list, from row e to row s. -/
def Smap.advance (m : Smap) (img : Image) : Smap :=
  { m with cursor := m.cursor.map fun r => if r = img.runEnd then img.runStart else r + 1 }

/-- R31, R34: position the cursor at cycle angle `a`; the events at or before `a` count as passed. -/
def State.position (s : State) (a : Nat) : State :=
  (s.setSmap (Smap.position s.cfg.active a)).setAdec { s.adec with nextAngle := a + 1 }

/-- R32, R54: a slot boundary: the cursor advances, and a tracked instance takes its operating snapshot. -/
def State.slotBoundary (s : State) (slot : Nat) (cycle : Half) : State :=
  let s' := s.setSmap (s.smap.advance s.cfg.active)
  if s.smap.marked slot then
    let c := (s.cfg.active.row (s.cfg.active.slotRow slot)).cyl
    s'.modCyt fun y => y.write slot cycle fun i => { i with snapshot := some (s.ops.snapshot c) }
  else s'

/-! ### Raising layout events -/

/-- Raise one layout event at stamp `t` in cycle `c`. The window events of a slot but its spark window opening are raised only
while its mark is set (R33). -/
def State.raise (t : Stamp) (c : Half) (s : State) (e : LayoutEvent) : State :=
  let cycle := e.instCycle c
  match e.kind with
  | .segment => s.segmentBoundary t e.slot cycle
  | .slotBoundary => s.slotBoundary e.slot cycle
  | .sparkOpen => s.sparkOpen e.slot cycle
  | .sparkClose => if s.smap.marked e.slot then s.sparkClose t e.slot else s
  | .knockOpen => if s.smap.marked e.slot then s.knockOpen t e.slot cycle else s
  | .knockClose => if s.smap.marked e.slot then s.knockClose t e.slot else s
  | .guardOpen => if s.smap.marked e.slot then s.guardOpen e.slot cycle else s
  | .guardClose => if s.smap.marked e.slot then s.guardClose t e.slot else s

/-- Raise a list of layout events in its order, at stamp `t` in cycle `c` (R17, R29). -/
def State.raiseAll (s : State) (t : Stamp) (c : Half) (events : List LayoutEvent) : State := events.foldl (State.raise t c) s

/-- R17: the angle clock has reached cycle angle `x`: the events from the first angle not yet passed are raised. -/
def State.reachAngle (s : State) (t : Stamp) (x : Nat) : State :=
  if s.adec.nextAngle ≤ x then
    (s.setAdec { s.adec with nextAngle := x + 1 }).raiseAll t s.adec.cycle (s.cfg.active.eventsBetween s.adec.nextAngle x)
  else s

end Sys2Proof.Machine
end

