-- ==== Sys2Proof/Machine/CaptureCommands.lean ====
section
/-! DEFINITION. The commands on the capture unit: CAPTURE_REQUEST, MARK, CAPTURE_READ, CAPTURE_RELEASE, CAPTURE_CANCEL and
CAPTURE_STATUS (sections 9.3, 9.4, 9.9 and 9.10). -/

namespace Sys2Proof.Machine

/-! ### CAPTURE_REQUEST (R158, R159) -/

/-- The capture kind of a code, none above 1 (R158). -/
def kindOfCode : Nat → Option CapKind
  | 0 => some .knockRaw
  | 1 => some .tooth
  | _ => none

/-- The capture mode of a code, none above 1 (R158). -/
def modeOfCode : Nat → Option CapMode
  | 0 => some .once
  | 1 => some .repeating
  | _ => none

/-- The target of a request: KNOCK_RAW 1 to 6, TOOTH 0 to 6 where 0 is no cylinder; none when out of range (R158). -/
def targetOf (k : CapKind) (v : Nat) : Option (Option Cyl) :=
  match k, v with
  | .tooth, 0 => some none
  | _, v => (cylOfNumber v).map some

/-- R158: a condition set that may be named: not empty, and IMMEDIATE only alone. -/
def conditionsFit (named : Byte) : Bool :=
  decide (named ≠ 0) && (decide (named &&& condImmediate = 0) || decide (named = condImmediate))

/-- The request that a CAPTURE_REQUEST payload places, WAITING, with no condition latched and no handle yet; none when a field
is out of range (R158). Counts above the kind's maximum are taken as the maximum. -/
def requestOf (p : Port) (payload : List Byte) : Option Request :=
  match kindOfCode (u8 payload 0), modeOfCode (u8 payload 4) with
  | some k, some m =>
    match targetOf k (u8 payload 1) with
    | some target =>
      if u8 payload 2 = 0 || !conditionsFit (payload.getD 3 0) then none
      else
        some { handle := 0, port := p, kind := k, target := target, count := min k.maxCount (u8 payload 2),
               named := payload.getD 3 0, latched := 0, mode := m, state := .waiting }
    | none => none
  | _, _ => none

/-- R158: the list holds 6 requests, or 2 of this port. -/
def Cap.atLimit (c : Cap) (p : Port) : Bool :=
  decide (6 ≤ c.requests.length) || decide (2 ≤ c.requests.countP fun r => decide (r.port = p))

/-- The handle after a handle: numbers run from 255 back to 1 (R159). -/
def handleAfter (h : Nat) : Nat := if 255 ≤ h then 1 else h + 1

/-- Whether a request of the list holds a handle. -/
def Cap.taken (c : Cap) (h : Nat) : Bool := c.requests.any fun r => decide (r.handle = h)

/-- The first handle from `h` on, of `k` numbers, that is not in the list. -/
def Cap.freeFrom (c : Cap) : Nat → Nat → Nat
  | 0, h => h
  | k + 1, h => if c.taken h then c.freeFrom k (handleAfter h) else h

/-- R159: the handle that an accepted request takes. Six requests at most hold handles, so seven numbers are enough. -/
def Cap.newHandle (c : Cap) : Nat := c.freeFrom 7 c.nextHandle

/-- R159: an accepted request takes its handle, enters the list at the newest end, latches what holds at acceptance, and the grant
rule is applied. -/
def State.acceptRequest (s : State) (t : Stamp) (r : Request) : State :=
  (s.modCap fun c =>
    { c with
      requests := c.requests ++ [Request.latch (armConds s) { r with handle := c.newHandle }]
      nextHandle := handleAfter c.newHandle }).grant t

/-- A request's state code after an event, 3 when it has left the list (R159, R169). -/
def Cap.stateAfter (c : Cap) (h : Nat) : Nat :=
  match c.requests.find? fun r => decide (r.handle = h) with
  | some r => r.state.code
  | none => 3

/-- R158, R159: CAPTURE_REQUEST after its length test. -/
def serveCaptureRequest (t : Stamp) (p : Port) (payload : List Byte) (s : State) : State × Response :=
  match requestOf p payload with
  | none => refuse .badValue s
  | some r =>
    if s.cap.atLimit p then refuse .limit s
    else
      let s' := s.acceptRequest t r
      (s', okWith [byte s.cap.newHandle, byte r.count, byte (s'.cap.stateAfter s.cap.newHandle)])

/-- CAPTURE_REQUEST (R158, R159). -/
def execCaptureRequest (t : Stamp) (p : Port) (payload : List Byte) (s : State) : Host.Outcome State Fault Refusal :=
  .next (takeRequest t p (ofLength 5 payload (serveCaptureRequest t p payload)) s)

/-! ### MARK (R161) -/

/-- The requests in which a MARK from port `p` latches: the WAITING ones that name MARK_p (R161). -/
def Cap.marked (c : Cap) (p : Port) : List Request :=
  c.requests.filter fun r => decide (r.state = .waiting) && decide (r.named &&& condMark p ≠ 0)

/-- R161: MARK after its length test. -/
def serveMark (t : Stamp) (p : Port) (s : State) : State × Response :=
  let hit := s.cap.marked p
  (s.latchAll t fun _ => condMark p,
   okWith [byte hit.length, byte (hit.countP fun r => decide ((r.latch (condMark p)).state = .triggered))])

/-- MARK (R161). -/
def execMark (t : Stamp) (p : Port) (payload : List Byte) (s : State) : Host.Outcome State Fault Refusal :=
  .next (takeRequest t p (ofLength 0 payload (serveMark t p)) s)

/-! ### Commands on a handle (R168 to R171) -/

/-- The request of a handle that port `p` placed (R168). -/
def Cap.ownRequest (c : Cap) (p : Port) (h : Nat) : Option Request :=
  c.requests.find? fun r => decide (r.handle = h) && decide (r.port = p)

/-- R168, tests 2 and 3: the first payload byte is the handle of a request of the issuing port. -/
def onHandle (p : Port) (payload : List Byte) (serve : Request → State → State × Response) (s : State) :
    State × Response :=
  if u8 payload 0 = 0 then refuse .badValue s
  else
    match s.cap.ownRequest p (u8 payload 0) with
    | none => refuse .notAllowed s
    | some r => serve r s

/-- Whether a request is ACTIVE with the unit HELD (R168, R169). -/
def State.holds (s : State) (r : Request) : Bool := decide (r.state = .active) && decide (s.cap.unit = .held)

/-- R168: CAPTURE_READ after the tests of the handle. -/
def serveCaptureRead (payload : List Byte) (r : Request) (s : State) : State × Response :=
  let pos := u16 payload 1
  let n := u8 payload 3
  if !s.holds r then refuse .notAllowed s
  else if n = 0 ∨ 120 < n ∨ s.cap.mem.held ≤ pos then refuse .badValue s
  else
    let words := s.cap.mem.slice pos n
    (s, okWith ([byte r.handle] ++ beBytes 2 s.cap.mem.held ++ beBytes 2 pos ++ [byte words.length] ++
      words.flatMap fun w => beBytes 2 w.toNat))

/-- CAPTURE_READ (R168). -/
def execCaptureRead (t : Stamp) (p : Port) (payload : List Byte) (s : State) : Host.Outcome State Fault Refusal :=
  .next (takeRequest t p (ofLength 4 payload (onHandle p payload (serveCaptureRead payload))) s)

/-- R169: the request list after a release: a ONCE request leaves it, a REPEAT request re-arms in its place. -/
def Cap.release (c : Cap) (conds : Byte) (r : Request) : Cap :=
  match r.mode with
  | .once => c.removeRequest r.handle
  | .repeating => { c with requests := c.requests.map fun q => if q.handle = r.handle then q.rearm conds else q }

/-- R169: CAPTURE_RELEASE after the tests of the handle. -/
def serveCaptureRelease (t : Stamp) (r : Request) (s : State) : State × Response :=
  if !s.holds r then refuse .notAllowed s
  else
    let s' := (s.modCap fun c => c.freeMemory.release (armConds s) r).grant t
    (s', okWith [byte r.handle, byte (s'.cap.stateAfter r.handle)])

/-- CAPTURE_RELEASE (R169). -/
def execCaptureRelease (t : Stamp) (p : Port) (payload : List Byte) (s : State) : Host.Outcome State Fault Refusal :=
  .next (takeRequest t p (ofLength 1 payload (onHandle p payload (serveCaptureRelease t))) s)

/-- The state a cancelled request had: 0 WAITING, 1 TRIGGERED, 2 filling, 3 held (R171). -/
def State.cancelCode (s : State) (r : Request) : Nat := if s.holds r then 3 else r.state.code

/-- R171: CAPTURE_CANCEL after the tests of the handle. -/
def serveCaptureCancel (t : Stamp) (r : Request) (s : State) : State × Response :=
  let s' :=
    if r.state = .active then
      ((s.emitCapture t r .cancelled).modCap fun c => c.freeMemory.removeRequest r.handle).grant t
    else s.modCap fun c => c.removeRequest r.handle
  (s', okWith [byte (s.cancelCode r)])

/-- CAPTURE_CANCEL (R171). -/
def execCaptureCancel (t : Stamp) (p : Port) (payload : List Byte) (s : State) : Host.Outcome State Fault Refusal :=
  .next (takeRequest t p (ofLength 1 payload (onHandle p payload (serveCaptureCancel t))) s)

/-! ### CAPTURE_STATUS (R172) -/

/-- The hold time remaining in ms, truncated; 0 when not HELD (R172). -/
def State.holdLeft (s : State) : Nat :=
  if s.cap.unit = .held then (s.cap.holdTicks - elapsed s.timebase s.cap.holdStart) / Config.ticksPerMs else 0

/-- A request in CAPTURE_STATUS, 8 bytes (R172). -/
def Request.bytes (r : Request) : List Byte :=
  [byte r.handle, byte (portCode r.port), byte r.state.code, byte (r.kind.code + 2 * r.mode.code),
   byte (r.target.elim 0 cylNumber), byte r.count, r.named, r.latched]

/-- The payload of CAPTURE_STATUS (R172). -/
def captureStatusPayload (s : State) : List Byte :=
  let c := s.cap
  [byte c.unit.code, byte (portCodeOrNone c.owner), byte (orZero c.active)] ++ beBytes 2 c.mem.held ++
  beBytes 2 s.holdLeft ++ [byte c.recorded, byte c.requests.length] ++ beBytes 4 s.timebase.toNat ++
  c.requests.flatMap Request.bytes

/-- CAPTURE_STATUS (R172). -/
def execCaptureStatus (t : Stamp) (p : Port) (payload : List Byte) (s : State) : Host.Outcome State Fault Refusal :=
  .next (takeRequest t p (ofLength 0 payload (reading captureStatusPayload)) s)

end Sys2Proof.Machine
end

