-- ==== Sys2Proof/Machine/Sync.lean ====
section
/-! DEFINITION. Changes of the sync state of ADEC: SYNC records, loss events and what every block does at them (sections 1.8 and
1.10). -/

namespace Sys2Proof.Machine

/-! ### Entering a sync state -/

/-- Entering SEEK: periods, last tooth period, T_rev and tooth index cleared, and everything that a departure from FULL_SYNC
clears; the first edge is kept with a count of 1, or there is none and the count is 0 (R4, R6, R10, R15). -/
def Adec.enterSeek (a : Adec) (first : Option Stamp) : Adec :=
  { a with sync := .seek, period := 0, prevPeriod := 0, toothPeriod := 0, trev := 0, toothIndex := 0,
           seekCount := if first.isSome then 1 else 0, lastEdge := first, camFaults := 0, inWindow := false }

/-- Entering HALTED by a stall (R18, R8, R15): in mode AUTO the polarity in use becomes the last good polarity. -/
def Adec.enterHalted (a : Adec) (img : Image) : Adec :=
  { a with sync := .halted, period := 0, prevPeriod := 0, toothPeriod := 0, trev := 0, toothIndex := 0, lastEdge := none,
           verifyFails := 0, camFaults := 0, inWindow := false,
           polarity := if img.polMode = 2 then a.lastGood else a.polarity }

/-- The drop from FULL_SYNC to CRANK_SYNC: crank sync, tooth index and T_rev are kept (R15). -/
def Adec.dropToCrank (a : Adec) : Adec := { a with sync := .crankSync, camFaults := 0, inWindow := false }

/-! ### Records and loss events -/

/-- R20: a SYNC record of the state as it stands, and SYNC_CHANGE on every port. -/
def State.emitSync (s : State) (t : Stamp) (cause : SyncCause) : State :=
  (s.emit { cyl := none, cycle := s.adec.cycle, stamp := t,
            body := .sync s.adec.sync cause s.adec.polarity }).alertAll alertSync

/-- A sync loss event at every block that acts on it: cursor and marks (R30, R33), spark records (R45), MFA (R78), integrators
(R98), the pending list (R135), the capture unit (R166). DESIGN CHOICE (assumption log 24): the abandon notice of an open window is
taken before the sync loss event reaches the capture unit, and the window counts in the recorded number; R164 lets either come first. -/
def State.syncLoss (s : State) (t : Stamp) : State :=
  ((((((s.setSmap { cursor := none, marks := .replicate 6 false }).setIgsu ⟨none, none, none, none, none, none⟩).modMfa
      Mfa.loseSync).abandonWindows t false).modCyt Cyt.discard)).capSyncLoss t

/-- R79, R76, R68: a halt event clears the block and the roughness history. -/
def Mfa.halt (m : Mfa) : Mfa := { m.clearBlock with history := [] }

/-- The loss events of R21 that a change from sync state `before` raises, in the state after it. -/
def State.lossEvents (s : State) (t : Stamp) (before : SyncState) : State :=
  let s1 := if before = .fullSync ∧ s.adec.sync ≠ .fullSync then s.syncLoss t else s
  let s2 := if (before = .fullSync ∨ before = .crankSync) ∧ (s.adec.sync = .seek ∨ s.adec.sync = .halted) then
      s1.capCrankLoss t else s1
  if s.adec.sync = .halted then s2.modMfa Mfa.halt else s2

/-- R20, R21: ADEC changes its sync state: SYNC record, alert and loss events. A pending commit is applied by the caller, after the
blocks have acted on a sync loss (R181). DESIGN CHOICE (assumption log 19): the SYNC record is offered before the CAPTURE record of a
capture that the loss event ends (R166). R21 says that the two come together, and R145 lets either be taken first. -/
def State.changeSync (s : State) (t : Stamp) (a : Adec) (cause : SyncCause) : State :=
  ((s.setAdec a).emitSync t cause).lossEvents t s.adec.sync

/-! ### Stall (R18) -/

/-- R18: the stall timer has run out at stamp `t`: not in HALTED, and the ticks since the stall reference have reached the
stall timeout. -/
def State.stallDue (s : State) (t : Stamp) : Bool :=
  decide (s.adec.sync ≠ .halted) &&
    decide (s.cfg.active.stallMs * Config.ticksPerMs ≤ elapsed t s.adec.stallRef)

/-- R18: the decoder enters HALTED with cause STALL. -/
def State.stallNow (s : State) (t : Stamp) : State := s.changeSync t (s.adec.enterHalted s.cfg.active) .stall

end Sys2Proof.Machine
end

