-- ==== Sys2Proof/Machine/Commit.lean ====
section
/-! DEFINITION. Commits (chapter 10): the checks of a staged image, the commit class, and the apply with its effects on every
block. -/

namespace Sys2Proof.Machine

/-! ### Validation (R36, R37, R59, R180) -/

/-- The rows of an image's run list, in row order. -/
def Image.runRows (img : Image) : List Nat := (List.range 12).filter img.inRun

/-- R36, SLOT_COUNT: e < s, or n below 3 or above 6. -/
def failsSlotCount (img : Image) : Bool :=
  decide (img.runEnd < img.runStart) || decide (img.slots < 3) || decide (6 < img.slots)

/-- R36, WHEEL_DIVISION: 2 × N_pos / n is not a whole number. -/
def failsWheelDivision (img : Image) : Bool := decide (2 * img.nPos % img.slots ≠ 0)

/-- R36, CYLINDER_REPEAT: the first row of the run list whose cylinder an earlier row of it names. -/
def repeatedRow (img : Image) : Option Nat :=
  img.runRows.find? fun r => img.runRows.any fun q => decide (q < r) && decide ((img.row q).cyl = (img.row r).cyl)

/-- R59, SEGMENT_OFFSET: the segment offset exceeds L / 2. -/
def failsSegmentOffset (img : Image) : Bool := decide (img.slotLen / 2 < img.segOffset)

/-- R59: whether slot `i`'s segment boundary lies on a missing tooth position. -/
def boundaryOnGap (img : Image) (i : Nat) : Bool :=
  decide (((img.nPos - img.missing : Nat) : Int) ≤
    (img.boundary i - img.refOffset) % (Config.revUnits : Int) / (img.toothAngle : Int))

/-- R59, BOUNDARY_ON_GAP: the row of the lowest slot whose boundary lies on a missing tooth position. -/
def gapRow (img : Image) : Option Nat := ((List.range img.slots).find? (boundaryOnGap img)).map img.slotRow

/-- R36, WINDOW_LATE for one row: a window ends later than 2L after TDC. -/
def windowLate (img : Image) (r : Nat) : Bool :=
  let x := img.row r
  decide (2 * img.slotLen < x.knockStart + x.knockLen) ||
    (decide (x.guardLen ≠ 0) && decide (2 * img.slotLen < x.guardStart + x.guardLen))

/-- R36, WINDOW_LATE: the lowest failing row. -/
def lateRow (img : Image) : Option Nat := img.runRows.find? (windowLate img)

/-- R37: whether two windows, each a start and a length, have a cycle angle in common, as sets modulo 11,520. -/
def windowsOverlap (a la b lb : Nat) : Bool :=
  let gap := fun (x y : Nat) => ((y : Int) - x) % (Config.cycleUnits : Int)
  decide (0 < la) && decide (0 < lb) && (decide (gap a b < la) || decide (gap b a < lb))

/-- R37: whether the windows of two rows of the run list overlap: same sensor, and knock windows or guard windows that overlap. -/
def rowsOverlap (img : Image) (q r : Nat) : Bool :=
  let x := img.row q
  let y := img.row r
  let zq := img.tdc (q - img.runStart)
  let zr := img.tdc (r - img.runStart)
  decide (x.sensor = y.sensor) &&
    (windowsOverlap (zq + x.knockStart) x.knockLen (zr + y.knockStart) y.knockLen ||
     windowsOverlap (zq + x.guardStart) x.guardLen (zr + y.guardStart) y.guardLen)

/-- R37, WINDOW_OVERLAP: the lower row of the first overlapping pair, pairs in row order. -/
def overlapRow (img : Image) : Option Nat :=
  img.runRows.find? fun q => img.runRows.any fun r => decide (q < r) && rowsOverlap img q r

/-- R180, CAM_SPAN: (hi − lo) modulo 11,520 is 5,760 or more. -/
def failsCamSpan (img : Image) : Bool :=
  decide ((Config.revUnits : Int) ≤ ((img.camHi : Int) - img.camLo) % (Config.cycleUnits : Int))

/-- R180: the first check that fails, as its code and the row it names, 255 when none is named. -/
def failedCheck (img : Image) : Option (Nat × Nat) :=
  if failsSlotCount img then some (1, 255)
  else if failsWheelDivision img then some (2, 255)
  else
    match repeatedRow img with
    | some r => some (3, r)
    | none =>
      if failsSegmentOffset img then some (4, 255)
      else
        match gapRow img with
        | some r => some (5, r)
        | none =>
          match lateRow img with
          | some r => some (6, r)
          | none =>
            match overlapRow img with
            | some r => some (7, r)
            | none => if failsCamSpan img then some (8, 255) else none

/-! ### The class (R183) -/

/-- R183, R35: the class of the difference between the active and the staged image. -/
def commitClass (active staged : Image) : CommitClass :=
  if [1, 2, 3, 4, 6, 7, 8].any (fun k => decide (staged.item k ≠ active.item k)) || decide (staged.slots ≠ active.slots) then
    .geometry
  else if decide (staged.runStart ≠ active.runStart) || decide (staged.runEnd ≠ active.runEnd) ||
      (List.range 12).any (fun r => (staged.inRun r || active.inRun r) && decide (staged.row r ≠ active.row r)) then
    .layout
  else .calibration

/-! ### The effects of an apply on the blocks (R182). `s.cfg.active` is the new image, `old` the old one. -/

/-- R2: the polarity in use after a commit: the mode, unless it is AUTO. -/
def polarityFor (img : Image) (p : Polarity) : Polarity :=
  match img.polMode with
  | 0 => .normal
  | 1 => .inverted
  | _ => p

/-- ADEC at an apply (R19). DESIGN CHOICE (assumption log 9): where a GEOMETRY commit also changes the stall timeout and the new timeout
has already passed, the decoder enters SEEK with cause COMMIT first and then HALTED with cause STALL, and both SYNC records are emitted;
R19 gives no order of the two. -/
def State.applyAdec (s : State) (t : Stamp) (cls : CommitClass) (old : Image) : State :=
  let s1 :=
    if cls = .geometry then
      let a := { s.adec with polarity := polarityFor s.cfg.active s.adec.polarity, verifyFails := 0, camFaults := 0 }
      if s.adec.sync = .halted then s.setAdec a else s.changeSync t (a.enterSeek none) .commit
    else s
  if decide (old.stallMs ≠ s.cfg.active.stallMs) && s1.stallDue t then s1.stallNow t else s1

/-- SMAP and IGSU at an apply, with the windows that SMAP abandons (R34, R35, R45, R98). -/
def State.applySmap (s : State) (t : Stamp) (cls : CommitClass) : State :=
  match cls with
  | .calibration => s
  | .geometry => s.setSmap { s.smap with marks := .replicate 6 false }
  | .layout =>
    let s1 := ((s.abandonWindows t true).setIgsu ⟨none, none, none, none, none, none⟩).setSmap
      { s.smap with marks := .replicate 6 false }
    if s.adec.sync = .fullSync then s1.position (s.adec.cycleAngle s.cfg.active t) else s1

/-- R135, R137: CYT's list and in-use marks at a LAYOUT or GEOMETRY apply, and the rewrites of the cylinders that leave. -/
def Cyt.newRunList (y : Cyt) (old new : Image) : Cyt where
  pendingList := []
  entry := y.entry.mapWith fun c e =>
    { (if old.hasCyl c && !new.hasCyl c then e.rewrite 0 0 else e) with inUse := new.hasCyl c }

/-- CYT at an apply (R135, R137). -/
def State.applyCyt (s : State) (cls : CommitClass) (old : Image) : State :=
  if cls = .calibration then s else s.modCyt fun y => y.newRunList old s.cfg.active

/-- OPS at an apply: a commit that changes the ALSIN settings forms the merged state anew (R49). -/
def State.applyOps (s : State) (old : Image) : State :=
  if old.alsinEnable ≠ s.cfg.active.alsinEnable ∨ old.alsinActive ≠ s.cfg.active.alsinActive then s.mergeOps else s

/-- MFA at an apply (R80, R81). -/
def State.applyMfa (s : State) (t : Stamp) (cls : CommitClass) (old : Image) : State :=
  let s1 := if cls = .calibration then s else s.modMfa fun m => m.newRunList s.cfg.active
  if old.segOffset ≠ s.cfg.active.segOffset then s1.segOffsetApply t else s1

/-- R97: whether an apply sets the gain in use of row `r` to its initial gain. -/
def resetsGain (cls : CommitClass) (old new : Image) (r : Nat) : Bool :=
  decide (cls = .geometry) || decide ((old.row r).initGain ≠ (new.row r).initGain) ||
    ((old.row r).autoRange && !(new.row r).autoRange)

/-- KFE at an apply (R97). -/
def State.applyKfe (s : State) (cls : CommitClass) (old : Image) : State :=
  s.setKfe
    { s.kfe with
      rows := vmapIdx (fun r x => if resetsGain cls old s.cfg.active r then ⟨(s.cfg.active.row r).initGain, 0⟩ else x)
        s.kfe.rows }

/-- R123: the retards clamped to a lowered retard maximum. -/
def Kna.clampRetard (k : Kna) (max : Nat) : Kna :=
  { k with cyl := k.cyl.mapWith fun _ c => { c with retard := min max c.retard } }

/-- R123, R139: the published retards of the cylinders whose retard was clamped. -/
def Cyt.clampRetard (y : Cyt) (k : Kna) (max : Nat) : Cyt :=
  { y with entry := y.entry.mapWith fun c e => if max < (k.cyl.get c).retard then { e with retard := max } else e }

/-- R124: every reference raised to a raised floor. -/
def Kna.raiseFloor (k : Kna) (floor : Nat) : Kna where
  cyl := k.cyl.mapWith fun _ c => { c with ref := max floor c.ref }
  gref := k.gref.map fun g => max floor g

/-- R125: every reference at the start value. -/
def Kna.restart (k : Kna) (start : Nat) : Kna where
  cyl := k.cyl.mapWith fun _ c => { c with ref := start }
  gref := k.gref.map fun _ => start

/-- R126: retard and recovery count 0 for each cylinder that is not in the new run list. -/
def Kna.newRunList (k : Kna) (img : Image) : Kna :=
  { k with cyl := k.cyl.mapWith fun x c => if img.hasCyl x then c else { c with retard := 0, recovery := 0 } }

/-- KNA at an apply (R123 to R126), with CYT's rewrites of clamped retards (R139). -/
def State.applyKna (s : State) (cls : CommitClass) (old : Image) : State :=
  let new := s.cfg.active
  let s1 := if new.retardMax < old.retardMax then
      (s.modCyt fun y => y.clampRetard s.kna new.retardMax).setKna (s.kna.clampRetard new.retardMax) else s
  let s2 := if old.refFloor < new.refFloor then s1.setKna (s1.kna.raiseFloor new.refFloor) else s1
  let s3 := if cls = .geometry then s2.setKna (s2.kna.restart new.refStart) else s2
  if cls = .calibration then s3 else s3.setKna (s3.kna.newRunList new)

/-- CAP at an apply (R173). -/
def State.applyCap (s : State) (t : Stamp) (cls : CommitClass) : State :=
  match cls with
  | .calibration => s
  | .layout => s.capRunList t
  | .geometry => (s.capRunList t).capGeometry t

/-- R182, step 4: every block takes its effects. The reference gives no order among the blocks; the model takes ADEC, SMAP with IGSU
and the windows, KNA, CYT, OPS, MFA, KFE, CAP (assumption log 9). -/
def State.applyEffects (s : State) (t : Stamp) (cls : CommitClass) (old : Image) : State :=
  ((((((((s.applyAdec t cls old).applySmap t cls).applyKna cls old).applyCyt cls old).applyOps old).applyMfa t cls
    old).applyKfe cls old).applyCap t cls)

/-- R182, steps 1 to 3: the staged image is copied to the active image, the generation increments, and the staging state clears. -/
def Cfg.apply (c : Cfg) : Cfg where
  active := c.staged
  staged := c.staged
  generation := c.generation + 1
  dirty := false
  lastStaging := none
  pendingCommit := none

/-- R182: an apply, ending with one CONFIG record and CONFIG_APPLIED on every port. -/
def State.applyCommit (s : State) (t : Stamp) (k : PendingCommit) : State :=
  let s1 := (s.setCfg s.cfg.apply).applyEffects t k.cls s.cfg.active
  (s1.emit { cyl := none, cycle := s1.adec.cycle, stamp := t,
             body := .config s1.cfg.generation k.port k.cls }).alertAll alertConfig

/-- R181: apply the pending commit, if there is one. -/
def State.applyPending (s : State) (t : Stamp) : State :=
  match s.cfg.pendingCommit with
  | some k => s.applyCommit t k
  | none => s

/-- R181: a change of sync state that leaves FULL_SYNC applies a pending commit, after the blocks have acted on the loss. -/
def State.changeSyncApply (s : State) (t : Stamp) (a : Adec) (cause : SyncCause) : State :=
  if s.adec.sync = .fullSync ∧ a.sync ≠ .fullSync then (s.changeSync t a cause).applyPending t
  else s.changeSync t a cause

end Sys2Proof.Machine
end

