-- ==== Sys2Proof/Machine/ConfigCommands.lean ====
section
/-! DEFINITION. The commands on the configuration images: STAGE_ROWS (R38), STAGE_GLOBAL, STAGE_TABLE, READ_ACTIVE, READ_STAGED,
DISCARD and COMMIT (chapter 10). -/

namespace Sys2Proof.Machine

/-! ### Staging (R175 to R177, R38) -/

/-- R175: an accepted staging write changes the staged image, sets the dirty flag and records its port. -/
def State.stage (s : State) (p : Port) (img : Image) : State :=
  s.setCfg { s.cfg with staged := img, dirty := true, lastStaging := some p }

/-- R176, test 2: while a commit is pending a staging write is answered NOT_ALLOWED. -/
def unlessPending (serve : State → State × Response) (s : State) : State × Response :=
  if s.cfg.pendingCommit.isSome then refuse .notAllowed s else serve s

/-- R38: one value into one field of the rows of a mask, all or none; none when the mask, the field or the value is out of range. -/
def Image.writeRows (img : Image) (mask field v : Nat) : Option Image :=
  if mask = 0 || decide (4096 ≤ mask) || (((img.row 0).write field v).isNone) then none
  else some { img with rows := vmapIdx (fun r x => if mask.testBit r then (x.write field v).getD x else x) img.rows }

/-- The number of bits of a mask below `n`. -/
def maskCount (n mask : Nat) : Nat := (List.range n).countP mask.testBit

/-- R38: STAGE_ROWS after its length test and the test of a pending commit. -/
def serveStageRows (p : Port) (payload : List Byte) (s : State) : State × Response :=
  match s.cfg.staged.writeRows (u16 payload 0) (u8 payload 2) (u16 payload 3) with
  | none => refuse .badValue s
  | some img => (s.stage p img, okWith [byte (maskCount 12 (u16 payload 0))])

/-- STAGE_ROWS (R38). -/
def execStageRows (t : Stamp) (p : Port) (payload : List Byte) (s : State) : Host.Outcome State Fault Refusal :=
  .next (takeRequest t p (ofLength 5 payload (unlessPending (serveStageRows p payload))) s)

/-- R176: STAGE_GLOBAL after its length test and the test of a pending commit. -/
def serveStageGlobal (p : Port) (payload : List Byte) (s : State) : State × Response :=
  let k := u8 payload 0
  let v := u32 payload 1
  if itemInRange k v then (s.stage p (s.cfg.staged.setItem k v), okWith (beBytes 4 v)) else refuse .badValue s

/-- STAGE_GLOBAL (R176). -/
def execStageGlobal (t : Stamp) (p : Port) (payload : List Byte) (s : State) : Host.Outcome State Fault Refusal :=
  .next (takeRequest t p (ofLength 5 payload (unlessPending (serveStageGlobal p payload))) s)

/-- R177: a misfire table with a value in every entry whose speed band bit and load band bit are set. -/
def writeMisfire (speed load v : Nat) (l : Vector Nat 64) : Vector Nat 64 :=
  vmapIdx (fun i x => if speed.testBit (i / 4) && load.testBit (i % 4) then v else x) l

/-- R177: a knock table with a value in every entry whose speed band bit is set. -/
def writeKnock (speed v : Nat) (l : Vector Nat 16) : Vector Nat 16 :=
  vmapIdx (fun i x => if speed.testBit i then v else x) l

/-- R177: one value into the selected entries of one table; none when a field is out of range. -/
def Image.writeTable (img : Image) (table speed load v : Nat) : Option Image :=
  if speed = 0 then none
  else
    match table with
    | 0 => if 1 ≤ load ∧ load ≤ 15 ∧ 1 ≤ v ∧ v ≤ 32767 then some { img with misfireA := writeMisfire speed load v img.misfireA } else none
    | 1 => if 1 ≤ load ∧ load ≤ 15 ∧ 1 ≤ v ∧ v ≤ 32767 then some { img with misfireB := writeMisfire speed load v img.misfireB } else none
    | 2 => if load = 0 ∧ 256 ≤ v ∧ v ≤ 16383 then some { img with knockA := writeKnock speed v img.knockA } else none
    | 3 => if load = 0 ∧ 256 ≤ v ∧ v ≤ 16383 then some { img with knockB := writeKnock speed v img.knockB } else none
    | _ => none

/-- R177: the number of entries written: speed bands times load bands, or speed bands for a knock table. -/
def entriesWritten (table speed load : Nat) : Nat := maskCount 16 speed * if table ≤ 1 then maskCount 4 load else 1

/-- R177: STAGE_TABLE after its length test and the test of a pending commit. -/
def serveStageTable (p : Port) (payload : List Byte) (s : State) : State × Response :=
  match s.cfg.staged.writeTable (u8 payload 0) (u16 payload 1) (u8 payload 3) (u16 payload 4) with
  | none => refuse .badValue s
  | some img => (s.stage p img, okWith [byte (entriesWritten (u8 payload 0) (u16 payload 1) (u8 payload 3))])

/-- STAGE_TABLE (R177). -/
def execStageTable (t : Stamp) (p : Port) (payload : List Byte) (s : State) : Host.Outcome State Fault Refusal :=
  .next (takeRequest t p (ofLength 6 payload (unlessPending (serveStageTable p payload))) s)

/-! ### Reading the images (R178) -/

/-- The 10-byte header of READ_ACTIVE and READ_STAGED (R178). `image` is 0 for the active image, 1 for the staged. -/
def imageHeader (c : Cfg) (image sec : Nat) : List Byte :=
  [byte image, byte sec] ++ beBytes 4 c.generation.toNat ++
  [flagByte [c.dirty, c.pendingCommit.isSome, c.pendingCommit.any fun k => decide (k.timing = .atCycle)],
   byte (portCodeOrNone c.lastStaging), byte (c.pendingCommit.elim 3 fun k => k.cls.code),
   byte (portCodeOrNone (c.pendingCommit.map (·.port)))]

/-- A section of an image as bytes, none above 4 (R178). -/
def imageSection (img : Image) : Nat → Option (List Byte)
  | 0 => some (img.items.toList.flatMap (beBytes 4))
  | 1 => some (img.misfireA.toList.flatMap (beBytes 2))
  | 2 => some (img.misfireB.toList.flatMap (beBytes 2))
  | 3 => some (img.knockA.toList.flatMap (beBytes 2))
  | 4 => some (img.knockB.toList.flatMap (beBytes 2))
  | _ => none

/-- R178: a read of an image after its length test. -/
def serveReadImage (image : Nat) (pick : Cfg → Image) (payload : List Byte) (s : State) : State × Response :=
  match imageSection (pick s.cfg) (u8 payload 0) with
  | none => refuse .badValue s
  | some bs => (s, okWith (imageHeader s.cfg image (u8 payload 0) ++ bs))

/-- READ_ACTIVE (R178). -/
def execReadActive (t : Stamp) (p : Port) (payload : List Byte) (s : State) : Host.Outcome State Fault Refusal :=
  .next (takeRequest t p (ofLength 1 payload (serveReadImage 0 Cfg.active payload)) s)

/-- READ_STAGED (R178). -/
def execReadStaged (t : Stamp) (p : Port) (payload : List Byte) (s : State) : Host.Outcome State Fault Refusal :=
  .next (takeRequest t p (ofLength 1 payload (serveReadImage 1 Cfg.staged payload)) s)

/-! ### DISCARD and COMMIT (R179 to R181) -/

/-- R179: the staged image equals the active one, nothing is pending and the staging state is clear. -/
def Cfg.discard (c : Cfg) : Cfg :=
  { c with staged := c.active, dirty := false, lastStaging := none, pendingCommit := none }

/-- R179: DISCARD after its length test. -/
def serveDiscard (s : State) : State × Response :=
  (s.setCfg s.cfg.discard, okWith [byte s.cfg.pendingCommit.isSome.toNat])

/-- DISCARD (R179). -/
def execDiscard (t : Stamp) (p : Port) (payload : List Byte) (s : State) : Host.Outcome State Fault Refusal :=
  .next (takeRequest t p (ofLength 0 payload serveDiscard) s)

/-- The timing of a code, none above 1 (R180). -/
def timingOfCode : Nat → Option CommitTiming
  | 0 => some .now
  | 1 => some .atCycle
  | _ => none

/-- The payload of an accepted COMMIT (R180). `outcome` is 0 for applied, 1 for pending. -/
def commitPayload (cls : CommitClass) (outcome : Nat) (generation : BitVec 32) : List Byte :=
  [byte cls.code, byte outcome] ++ beBytes 4 generation.toNat

/-- R181: an accepted commit is held pending for timing AT_CYCLE in FULL_SYNC, and is applied at once otherwise. -/
def State.acceptCommit (s : State) (t : Stamp) (k : PendingCommit) : State :=
  if k.timing = .atCycle ∧ s.adec.sync = .fullSync then s.setCfg { s.cfg with pendingCommit := some k }
  else s.applyCommit t k

/-- R181: the outcome of an accepted commit, 1 when it is held pending. -/
def State.commitOutcome (s : State) (k : PendingCommit) : Nat :=
  if k.timing = .atCycle ∧ s.adec.sync = .fullSync then 1 else 0

/-- R180: COMMIT after its length test. -/
def serveCommit (t : Stamp) (p : Port) (payload : List Byte) (s : State) : State × Response :=
  match timingOfCode (u8 payload 0) with
  | none => refuse .badValue s
  | some timing =>
    if s.cfg.pendingCommit.isSome then refuse .busy s
    else
      match failedCheck s.cfg.staged with
      | some (code, row) => (s, ⟨.badConfig, [byte code, byte row]⟩)
      | none =>
        let k : PendingCommit := { timing := timing, cls := commitClass s.cfg.active s.cfg.staged, port := p }
        (s.acceptCommit t k, okWith (commitPayload k.cls (s.commitOutcome k) (s.acceptCommit t k).cfg.generation))

/-- COMMIT (R180, R181, R183). -/
def execCommit (t : Stamp) (p : Port) (payload : List Byte) (s : State) : Host.Outcome State Fault Refusal :=
  .next (takeRequest t p (ofLength 1 payload (serveCommit t p payload)) s)

end Sys2Proof.Machine
end

