-- ==== Sys2Proof/Machine/Control.lean ====
section
/-! DEFINITION. The commands that act on the operating state and on the retards: DECLARE_STATE (R46) and RETARD_RESET (R121). -/

namespace Sys2Proof.Machine

/-- The declaration that a DECLARE_STATE payload states, taken now (R46): values of the load band above 3 are taken as 3. -/
def declarationOf (payload : List Byte) (now : Stamp) (img : Image) : Declaration where
  antiLag := decide (u8 payload 0 = 1)
  band := min 3 (u8 payload 1)
  mask := BitVec.ofNat 6 (u8 payload 2)
  start := now
  duration := img.declMs * Config.ticksPerMs

/-- The merged state in the response of DECLARE_STATE (R46). -/
def mergedPayload (o : Ops) : List Byte :=
  [byte o.antiLag.toNat, byte o.fuelCut.toNat, byte o.band, byte o.stale.toNat, byte o.set.code]

/-- R46: DECLARE_STATE after its length test. -/
def serveDeclareState (p : Port) (payload : List Byte) (s : State) : State × Response :=
  if 1 < u8 payload 0 ∨ 63 < u8 payload 2 then refuse .badValue s
  else
    let s' := s.setDecl p (some (declarationOf payload s.timebase s.cfg.active))
    (s', okWith (mergedPayload s'.ops))

/-- DECLARE_STATE (R46). -/
def execDeclareState (t : Stamp) (p : Port) (payload : List Byte) (s : State) : Host.Outcome State Fault Refusal :=
  .next (takeRequest t p (ofLength 3 payload (serveDeclareState p payload)) s)

/-- R121: the retard and recovery count of the named cylinders set to 0. -/
def Kna.resetRetard (k : Kna) (mask : Nat) : Kna :=
  { k with cyl := k.cyl.mapWith fun c x => if mask.testBit (cylBit c) then { x with retard := 0, recovery := 0 } else x }

/-- R121, R139: the published retard and recovery count of the named cylinders rewritten to 0. -/
def Cyt.resetRetard (y : Cyt) (mask : Nat) : Cyt :=
  { y with entry := y.entry.mapWith fun c e => if mask.testBit (cylBit c) then e.rewrite 0 0 else e }

/-- R121: RETARD_RESET after its length test. -/
def serveRetardReset (payload : List Byte) (s : State) : State × Response :=
  let mask := u8 payload 0
  if mask = 0 ∨ 63 < mask then refuse .badValue s
  else
    ((s.setKna (s.kna.resetRetard mask)).modCyt fun y => y.resetRetard mask,
     okWith (s.kna.cyl.toList.map fun c => byte c.retard))

/-- RETARD_RESET (R121). -/
def execRetardReset (t : Stamp) (p : Port) (payload : List Byte) (s : State) : Host.Outcome State Fault Refusal :=
  .next (takeRequest t p (ofLength 1 payload (serveRetardReset payload)) s)

end Sys2Proof.Machine
end

