-- ==== Sys2Proof/Machine/Link.lean ====
section
/-! DEFINITION. The serial link and the port's own commands (chapter 11): SELECTION_START, PROCESSING_DONE, BAD_FRAME,
UNKNOWN_COMMAND, NO_OP, STATUS, SET_ALERT_MASK, CLEAR_ALERTS, PORT_RESET. -/

namespace Sys2Proof.Machine

/-- R186, R190: a selection that begins while the port is busy, or within the start-up period, is answered NOT_READY. -/
def State.notReady (s : State) (p : Port) : Bool := s.startUp || (s.port p).busy

/-- R184, R186: select falls. A selection answered NOT_READY leaves the buffer as it is; otherwise the buffer's frame, or NONE, is
clocked out and the buffer is emptied. -/
def State.select (s : State) (p : Port) : State :=
  if s.notReady p then s.setPort p { s.port p with selection := .refused, dataOut := some (bare .notReady) }
  else
    s.setPort p
      { s.port p with selection := .serving, dataOut := some ((s.port p).buffer.getD (bare .none)), buffer := none }

/-- SELECTION_START: select falls on a port (R184, R186, R190). With a selection in progress select is at "L" already and there is
no falling edge. -/
def execSelectionStart (t : Stamp) (p : Port) (s : State) : Host.Outcome State Fault Refusal :=
  .next (onEvent t (fun s => if (s.port p).selection = .idle then s.select p else s) s)

/-- PROCESSING_DONE: processing of the taken request is complete, the response is in the buffer and the port is no longer busy
(R186). -/
def execProcessingDone (t : Stamp) (p : Port) (s : State) : Host.Outcome State Fault Refusal :=
  .next (onEvent t (fun s => s.setPort p { s.port p with busy := false }) s)

/-- BAD_FRAME: a request that is truncated or fails its check byte is answered BAD_FRAME and not executed (R185). -/
def execBadFrame (t : Stamp) (p : Port) (_bytes : List Byte) (s : State) : Host.Outcome State Fault Refusal :=
  .next (takeRequest t p (refuse .badFrame) s)

/-- UNKNOWN_COMMAND: a request with a command code not in the table is answered UNKNOWN_COMMAND and not executed (R185). -/
def execUnknownCommand (t : Stamp) (p : Port) (_code : Byte) (_payload : List Byte) (s : State) :
    Host.Outcome State Fault Refusal :=
  .next (takeRequest t p (refuse .unknownCommand) s)

/-- NO_OP is answered OK with no payload and changes no state (R191). -/
def execNoOp (t : Stamp) (p : Port) (payload : List Byte) (s : State) : Host.Outcome State Fault Refusal :=
  .next (takeRequest t p (ofLength 0 payload (reading fun _ => [])) s)

/-- The payload of STATUS (R187). -/
def statusPayload (p : Port) (s : State) : List Byte :=
  let x := s.port p
  [byte x.alerts.toNat, byte x.alertMask.toNat, byte x.queue.length] ++ beBytes 2 x.dropped ++
  beBytes 2 x.subscription.toNat ++
  [byte x.format.code, byte x.watermark, byte s.adec.sync.code, byte s.ops.set.code] ++
  beBytes 4 s.cfg.generation.toNat ++
  [flagByte [s.cfg.pendingCommit.isSome, x.attention]]

/-- STATUS returns the port's state (R187). -/
def execStatus (t : Stamp) (p : Port) (payload : List Byte) (s : State) : Host.Outcome State Fault Refusal :=
  .next (takeRequest t p (ofLength 0 payload (reading (statusPayload p))) s)

/-- R188: bits 0 to 4 of a byte, none when one of bits 5 to 7 is set. -/
def alertBits (v : Nat) : Option (BitVec 5) := if v < 32 then some (BitVec.ofNat 5 v) else none

/-- R188: replace the alert mask; the response gives the alert flags. -/
def serveSetAlertMask (p : Port) (payload : List Byte) (s : State) : State × Response :=
  match alertBits (u8 payload 0) with
  | none => refuse .badValue s
  | some m => (s.setPort p { s.port p with alertMask := m }, okWith [byte (s.port p).alerts.toNat])

/-- SET_ALERT_MASK (R188). -/
def execSetAlertMask (t : Stamp) (p : Port) (payload : List Byte) (s : State) : Host.Outcome State Fault Refusal :=
  .next (takeRequest t p (ofLength 1 payload (serveSetAlertMask p payload)) s)

/-- R188: clear the alert flags whose bits are 1; the response gives the flags before and after. -/
def serveClearAlerts (p : Port) (payload : List Byte) (s : State) : State × Response :=
  match alertBits (u8 payload 0) with
  | none => refuse .badValue s
  | some m =>
    let x := (s.port p).clearAlerts m
    (s.setPort p x, okWith [byte (s.port p).alerts.toNat, byte x.alerts.toNat])

/-- CLEAR_ALERTS (R188). -/
def execClearAlerts (t : Stamp) (p : Port) (payload : List Byte) (s : State) : Host.Outcome State Fault Refusal :=
  .next (takeRequest t p (ofLength 1 payload (serveClearAlerts p payload)) s)

/-- R155, R189: a port's record state after PORT_RESET; format and watermark keep their values. -/
def PortState.resetRecords (x : PortState) : PortState :=
  { x with queue := [], dropped := 0, subscription := 0, alerts := 0, alertMask := 0 }

/-- R174: a port's requests leave the list; if the port owns the unit, the memory is freed. -/
def Cap.portReset (c : Cap) (p : Port) : Cap :=
  let d := if c.owner = some p then c.freeMemory else c
  { d with requests := c.requests.filter fun r => decide (r.port ≠ p) }

/-- R189: PORT_RESET in its order. -/
def servePortReset (t : Stamp) (p : Port) (s : State) : State × Response :=
  let x := s.port p
  let s1 := s.setPort p x.resetRecords
  let s2 := (s1.modCap fun c => c.portReset p).grant t
  let s3 := s2.setDecl p none
  let s4 := s3.setPort p { s3.port p with buffer := none }
  (s4, okWith ([byte x.queue.length] ++ beBytes 2 x.dropped ++
    [byte (s.cap.requests.countP fun r => decide (r.port = p))]))

/-- PORT_RESET (R189). -/
def execPortReset (t : Stamp) (p : Port) (payload : List Byte) (s : State) : Host.Outcome State Fault Refusal :=
  .next (takeRequest t p (ofLength 0 payload (servePortReset t p)) s)

end Sys2Proof.Machine
end

