-- ==== Sys2Proof/Machine/Records.lean ====
section
/-! DEFINITION. The byte layouts of records (section 8.3). -/

namespace Sys2Proof.Machine

/-- The joined misfire code of a record (R147). A NOT_ASSESSED verdict of a decided instance always carries one of its three
reasons. -/
def misfireCode (j : MisfireJudged) : Nat :=
  match j.verdict with
  | .notAssessed =>
    match j.reason with
    | some .lowSpeed => 1
    | some .overspeed => 2
    | _ => 0
  | .noMisfire => 3
  | .misfire => 4
  | .rough => 5
  | .cut => 6
  | .neighborCut => 7

/-- The joined knock code of a record (R147). -/
def knockCode (j : KnockJudged) : Nat :=
  match j.verdict with
  | .notAssessed => if j.reason = some .overspeed then 1 else 2
  | .clean => 3
  | .knock => 4
  | .noise => 5
  | .clipped => 6
  | .noWindow => 7

/-- The spark code of a SLOT record: the spark angle plus 1,441, 0 when absent (R147). -/
def sparkCode : Option Int → Nat
  | some x => (x + 1441).toNat
  | none => 0

/-- The integrated value I carried by a SLOT record: trunc(I_n × g / 32) (R147). -/
def slotI (j : KnockJudged) : Nat := orZero j.inorm * j.gain.value / 32

/-- K and Q of a SLOT record, saturated at 16,383 (R147). -/
def sat14 (n : Option Nat) : Nat := min 16383 (orZero n)

/-- D, 0 when absent. -/
def MisfireJudged.dBytes (j : MisfireJudged) : Nat := signed16 (j.index.elim 0 (·.d))
/-- The effective limit, 0 when absent. -/
def MisfireJudged.limitNum (j : MisfireJudged) : Nat := j.index.elim 0 (·.limit)
/-- W, 0 when absent. -/
def MisfireJudged.wNum (j : MisfireJudged) : Nat := j.index.elim 0 (·.w)

/-- The set bit of byte 0: 1 for set B in SLOT, MISFIRE and KNOCK records (R147). -/
def RecordBody.setBit : RecordBody → Nat
  | .slot _ _ _ _ _ _ set _ => set.code
  | .misfire _ _ _ set _ => set.code
  | .knock _ _ _ _ set => set.code
  | _ => 0

/-- Bytes 0 to 2 of a record: kind, set bit, cylinder and cycle number (R147). -/
def Record.head (r : Record) : List Byte :=
  byte (r.body.kindCode * 16 + r.body.setBit * 8 + r.cyl.elim 0 cylNumber) :: beBytes 2 r.cycle.toNat

/-- The fields of its own of a record in FULL, from byte 7 (R147, R148). -/
def RecordBody.fullFields : RecordBody → List Byte
  | .slot row m k retard recovery spark _ stale =>
    beBytes 2 m.dBytes ++ beBytes 2 (stale.toNat * 32768 + m.limitNum) ++
    beBytes 2 (k.inorm.isSome.toNat * 32768 + m.wNum) ++ beBytes 2 (slotI k) ++
    beBytes 4 (sat14 k.k * 262144 + sat14 k.q * 16 + k.guard.code * 4 + cutCode spark.cut) ++
    beBytes 2 (row * 4096 + sparkCode spark.angle) ++
    beBytes 2 (misfireCode m * 8192 + knockCode k * 1024 + k.gain.code * 128 + retard) ++ [byte recovery]
  | .misfire d limit cons _ stale => beBytes 2 (signed16 d) ++ beBytes 2 limit ++ [byte cons, byte stale.toNat]
  | .persist cons limit => [byte cons, byte limit]
  | .rate count length => beBytes 2 count ++ beBytes 2 length
  | .knock k inorm retard step _ => beBytes 2 k ++ beBytes 3 inorm ++ [byte retard, byte step]
  | .noise sensor q gn => [byte sensor.number] ++ beBytes 2 q ++ beBytes 3 gn
  | .gain sensor row old new cause =>
    [byte sensor.number, byte row, byte old.value, byte new.value, byte (if cause = .clip then 0 else 1)]
  | .sync state cause polarity => [byte state.code, byte cause.code, byte polarity.code]
  | .capture handle outcome kind words => [byte handle, byte outcome.code, byte kind.code] ++ beBytes 2 words
  | .config generation port cls => beBytes 2 generation.toNat ++ [byte (portCode port), byte cls.code]

/-- The fields of its own of a record in COMPACT, from byte 3 (R147, R148). -/
def RecordBody.compactFields : RecordBody → List Byte
  | .slot row m k retard _ spark _ stale =>
    [byte (misfireCode m * 32 + knockCode k * 4 + cutCode spark.cut)] ++ beBytes 2 m.dBytes ++
    beBytes 2 (stale.toNat * 32768 + m.limitNum) ++ beBytes 2 (k.guard.code * 16384 + sat14 k.k) ++
    [byte retard, byte (row * 16 + k.gain.code)]
  | .knock k _ retard step _ => beBytes 2 k ++ [byte retard, byte step]
  | .noise sensor q _ => [byte sensor.number] ++ beBytes 2 q
  | .capture handle outcome _ _ => [byte handle, byte outcome.code]
  | body => body.fullFields

/-- Bytes beyond the last field of a kind are sent as 0 (R147). -/
def padTo (n : Nat) (l : List Byte) : List Byte := l ++ List.replicate (n - l.length) 0

/-- A record in a format: 24 bytes in FULL with the timestamp in bytes 3 to 6, 12 bytes in COMPACT (R147). -/
def Record.bytes (r : Record) : Format → List Byte
  | .full => padTo 24 (r.head ++ beBytes 4 r.stamp.toNat ++ r.body.fullFields)
  | .compact => padTo 12 (r.head ++ r.body.compactFields)

/-- The per-frame maximum of FETCH_RECORDS (R150). -/
def Format.perFrame : Format → Nat
  | .full => 10
  | .compact => 20

end Sys2Proof.Machine
end

