-- ==== Sys2Proof/Machine/Queues.lean ====
section
/-! DEFINITION. The commands on a port's record queue (section 8.4): SUBSCRIBE, FETCH_RECORDS, CLEAR_QUEUE. -/

namespace Sys2Proof.Machine

/-- The format of a code, none above 1 (R149). -/
def formatOfCode : Nat → Option Format
  | 0 => some .compact
  | 1 => some .full
  | _ => none

/-- R149: a kind mask, none when one of bits 10 to 15 is set. -/
def kindMask (v : Nat) : Option (BitVec 10) := if v < 1024 then some (BitVec.ofNat 10 v) else none

/-- R149: SUBSCRIBE after its length test. Watermarks above 128 are taken as 128. -/
def serveSubscribe (p : Port) (payload : List Byte) (s : State) : State × Response :=
  match kindMask (u16 payload 0), formatOfCode (u8 payload 2) with
  | some m, some f =>
    let w := min 128 (u8 payload 3)
    (s.setPort p { s.port p with subscription := m, format := f, watermark := w },
     okWith [byte w, byte (s.port p).queue.length])
  | _, _ => refuse .badValue s

/-- SUBSCRIBE (R149). -/
def execSubscribe (t : Stamp) (p : Port) (payload : List Byte) (s : State) : Host.Outcome State Fault Refusal :=
  .next (takeRequest t p (ofLength 4 payload (serveSubscribe p payload)) s)

/-- R150: the number of records that FETCH_RECORDS takes. -/
def PortState.fetchCount (x : PortState) (n : Nat) : Nat := min n (min x.queue.length x.format.perFrame)

/-- R150: FETCH_RECORDS after its length test. -/
def serveFetchRecords (p : Port) (payload : List Byte) (s : State) : State × Response :=
  let x := s.port p
  let n := u8 payload 0
  if n = 0 then refuse .badValue s
  else if x.queue.isEmpty then refuse .empty s
  else
    let r := x.fetchCount n
    (s.setPort p { x with queue := x.queue.drop r },
     okWith ([byte x.format.code, byte r, byte (x.queue.length - r)] ++ beBytes 2 x.dropped ++
       (x.queue.take r).flatMap fun rec => rec.bytes x.format))

/-- FETCH_RECORDS (R150). -/
def execFetchRecords (t : Stamp) (p : Port) (payload : List Byte) (s : State) : Host.Outcome State Fault Refusal :=
  .next (takeRequest t p (ofLength 1 payload (serveFetchRecords p payload)) s)

/-- R151: CLEAR_QUEUE after its length test. -/
def serveClearQueue (p : Port) (s : State) : State × Response :=
  let x := s.port p
  (s.setPort p (({ x with queue := [], dropped := 0, subscription := 0 } : PortState).clearAlerts (alertBit alertOverflow)),
   okWith ([byte x.queue.length] ++ beBytes 2 x.dropped))

/-- CLEAR_QUEUE (R151). -/
def execClearQueue (t : Stamp) (p : Port) (payload : List Byte) (s : State) : Host.Outcome State Fault Refusal :=
  .next (takeRequest t p (ofLength 0 payload (serveClearQueue p)) s)

end Sys2Proof.Machine
end

