-- ==== Sys2Proof/Machine/Reads.lean ====
section
/-! DEFINITION. The commands that read the angle decoder, the slot map, the operating state, the assessors and the cylinder table:
READ_ANGLE, READ_ROWS, READ_OPSTATE, READ_MISFIRE, READ_KNOCK_FRONT, READ_KNOCK_STATE, READ_CYLINDER, READ_TABLE. None changes a
state of the part but the port's own link state. -/

namespace Sys2Proof.Machine

/-- The timestamp field: the timebase value when the command was taken. -/
def stampBytes (s : State) : List Byte := beBytes 4 s.timebase.toNat

/-- The angle kind and the angle that the angle clock reports (R13, R23). -/
def State.angleReport (s : State) : Nat × Nat :=
  match s.adec.sync with
  | .fullSync => (2, s.adec.cycleAngle s.cfg.active s.timebase)
  | .crankSync => (1, s.adec.revAngle s.cfg.active s.timebase)
  | .halted | .seek | .verify => (0, 0)

/-- The payload of READ_ANGLE (R23). -/
def anglePayload (s : State) : List Byte :=
  let a := s.adec
  [byte a.sync.code, byte a.polarity.code, byte s.cfg.active.polMode, byte s.angleReport.1] ++
  beBytes 2 s.angleReport.2 ++ beBytes 2 (min 65535 a.rpm) ++
  [byte a.band, flagByte [a.overspeed, a.inWindow]] ++ beBytes 4 a.trev ++ beBytes 2 a.cycle.toNat ++ stampBytes s ++
  beBytes 2 a.anomalyTotal ++ beBytes 2 a.syncLossTotal ++ beBytes 2 a.camFaultTotal ++ beBytes 2 a.flipTotal ++
  beBytes 2 a.verifyFailTotal ++ [byte a.verifyFails, byte a.camFaults]

/-- READ_ANGLE (R23). -/
def execReadAngle (t : Stamp) (p : Port) (payload : List Byte) (s : State) : Host.Outcome State Fault Refusal :=
  .next (takeRequest t p (ofLength 0 payload (reading anglePayload)) s)

/-- A row in READ_ROWS, 12 bytes (R39). -/
def rowBytes (img : Image) (r : Nat) : List Byte :=
  let x := img.row r
  [byte (cylNumber x.cyl), byte x.sensor.number] ++ beBytes 2 x.knockStart ++ beBytes 2 x.knockLen ++
  beBytes 2 x.guardStart ++ beBytes 2 x.guardLen ++ [byte x.initGain.value, flagByte [x.autoRange, img.inRun r]]

/-- The payload of READ_ROWS (R39). -/
def rowsPayload (image : Nat) (img : Image) (cursor : Option Nat) (first count : Nat) : List Byte :=
  [byte image, byte img.runStart, byte img.runEnd, byte cursor.isSome.toNat, byte (orZero cursor), byte first, byte count] ++
  (List.range count).flatMap fun k => rowBytes img (first + k)

/-- R39: READ_ROWS after its length test. -/
def serveReadRows (payload : List Byte) (s : State) : State × Response :=
  let image := u8 payload 0
  let first := u8 payload 1
  let count := u8 payload 2
  if 1 < image ∨ 11 < first ∨ count = 0 ∨ 12 < first + count then refuse .badValue s
  else
    (s, okWith (rowsPayload image (if image = 0 then s.cfg.active else s.cfg.staged) s.smap.cursor first count))

/-- READ_ROWS (R39). -/
def execReadRows (t : Stamp) (p : Port) (payload : List Byte) (s : State) : Host.Outcome State Fault Refusal :=
  .next (takeRequest t p (ofLength 3 payload (serveReadRows payload)) s)

/-- A declaration slot in READ_OPSTATE, 5 bytes (R56). DESIGN CHOICE (assumption log 21): of an empty slot R56 gives the present byte
and the time remaining as 0, and says nothing of the flags byte and the load band byte; the model sends 0 in both. -/
def declBytes (now : Stamp) : Option Declaration → List Byte
  | some d => [byte 1, flagByte [d.antiLag], byte d.band] ++ beBytes 2 (d.left now / Config.ticksPerMs)
  | none => [0, 0, 0, 0, 0]

/-- The payload of READ_OPSTATE (R56). -/
def opstatePayload (s : State) : List Byte :=
  let o := s.ops
  let img := s.cfg.active
  [flagByte [o.antiLag, o.stale, o.alsin, o.lineActive img], byte o.fuelCut.toNat, byte o.band, byte o.set.code,
   byte o.tail, byte img.tailCycles, byte img.igsMask, flagByte (s.igsu.toList.map (·.isSome))] ++ stampBytes s ++
  declBytes s.timebase o.decl.a ++ declBytes s.timebase o.decl.b ++ declBytes s.timebase o.decl.c

/-- READ_OPSTATE (R56). -/
def execReadOpstate (t : Stamp) (p : Port) (payload : List Byte) (s : State) : Host.Outcome State Fault Refusal :=
  .next (takeRequest t p (ofLength 0 payload (reading opstatePayload)) s)

/-- The payload of READ_MISFIRE (R84). -/
def misfirePayload (s : State) : List Byte :=
  let m := s.mfa
  [byte m.history.length] ++ (List.range 8).flatMap (fun k => beBytes 2 (m.history.getD k 0)) ++
  beBytes 2 (roadIndex m.history) ++ beBytes 2 m.blockCycles ++ beBytes 2 s.cfg.active.blockLength ++
  m.counts.toList.flatMap (fun c => [byte c.cons, flagByte [c.persist]] ++ beBytes 2 c.block) ++
  [byte (closedSegments m.segments).length] ++ stampBytes s

/-- READ_MISFIRE (R84). -/
def execReadMisfire (t : Stamp) (p : Port) (payload : List Byte) (s : State) : Host.Outcome State Fault Refusal :=
  .next (takeRequest t p (ofLength 0 payload (reading misfirePayload)) s)

/-- A sensor in READ_KNOCK_FRONT, 3 bytes (R102). -/
def chainBytes (img : Image) (σ : Sensor) (c : SensorChain) : List Byte :=
  [byte c.stage.value, byte (img.centre σ), flagByte [c.knock.isSome, c.guard.isSome, c.guard.any (·.void)]]

/-- The payload of READ_KNOCK_FRONT (R102). -/
def knockFrontPayload (s : State) : List Byte :=
  chainBytes s.cfg.active .ks0 s.kfe.chain.s0 ++ chainBytes s.cfg.active .ks1 s.kfe.chain.s1 ++
  (List.range 12).flatMap (fun r => [byte (s.kfe.rowGain r).gain.value, byte (s.kfe.rowGain r).lowRun]) ++ stampBytes s

/-- READ_KNOCK_FRONT (R102). -/
def execReadKnockFront (t : Stamp) (p : Port) (payload : List Byte) (s : State) : Host.Outcome State Fault Refusal :=
  .next (takeRequest t p (ofLength 0 payload (reading knockFrontPayload)) s)

/-- The payload of READ_KNOCK_STATE (R129). -/
def knockStatePayload (s : State) : List Byte :=
  let img := s.cfg.active
  s.kna.cyl.toList.flatMap (fun c => beBytes 4 c.ref ++ [byte c.retard, byte c.recovery]) ++
  beBytes 4 s.kna.gref.s0 ++ beBytes 4 s.kna.gref.s1 ++
  [byte img.retardMax, byte img.recoveryCycles, byte img.adaptShift] ++ stampBytes s

/-- READ_KNOCK_STATE (R129). -/
def execReadKnockState (t : Stamp) (p : Port) (payload : List Byte) (s : State) : Host.Outcome State Fault Refusal :=
  .next (takeRequest t p (ofLength 0 payload (reading knockStatePayload)) s)

/-- The published entry form, 40 bytes (section 7.6). -/
def entryBytes (e : Entry) : List Byte :=
  [flagByte [e.inUse, e.assessed], byte e.row] ++ beBytes 2 e.cycle.toNat ++
  [byte (e.misfire.verdict.code * 16 + misfireReasonCode e.misfire.reason)] ++
  beBytes 2 (signed16 (e.misfire.index.elim 0 (·.d))) ++ beBytes 2 (e.misfire.index.elim 0 (·.limit)) ++
  beBytes 2 (e.misfire.index.elim 0 (·.w)) ++ [byte e.cons] ++ beBytes 2 e.block ++
  [byte (e.knock.verdict.code * 16 + knockReasonCode e.knock.reason)] ++ beBytes 2 (orZero e.knock.k) ++
  beBytes 3 (orZero e.knock.inorm) ++
  [byte e.knock.gain.value, byte (e.knock.guard.code + 4 * cutCode e.spark.cut)] ++ beBytes 2 (orZero e.knock.q) ++
  beBytes 3 e.ref ++ [byte e.retard, byte e.recovery] ++ beBytes 2 (signed16 (e.spark.angle.getD 0)) ++
  [flagByte [decide (e.set = .setB), e.stale, e.spark.angle.isSome, e.misfire.index.isSome, e.knock.k.isSome,
    e.knock.inorm.isSome, e.knock.q.isSome]] ++
  beBytes 2 e.life.misfires ++ beBytes 2 e.life.knocks ++ beBytes 2 e.life.noise ++ beBytes 2 e.life.cuts

/-- R142: READ_CYLINDER after its length test. -/
def serveReadCylinder (payload : List Byte) (s : State) : State × Response :=
  match cylOfNumber (u8 payload 0) with
  | none => refuse .badValue s
  | some c => (s, okWith ([byte (cylNumber c)] ++ stampBytes s ++ entryBytes (s.cyt.entry.get c)))

/-- READ_CYLINDER (R142). -/
def execReadCylinder (t : Stamp) (p : Port) (payload : List Byte) (s : State) : Host.Outcome State Fault Refusal :=
  .next (takeRequest t p (ofLength 1 payload (serveReadCylinder payload)) s)

/-- The payload of READ_TABLE (R142). -/
def tablePayload (s : State) : List Byte :=
  stampBytes s ++ [byte s.cyt.pendingList.length] ++ s.cyt.entry.toList.flatMap entryBytes

/-- READ_TABLE (R142). -/
def execReadTable (t : Stamp) (p : Port) (payload : List Byte) (s : State) : Host.Outcome State Fault Refusal :=
  .next (takeRequest t p (ofLength 0 payload (reading tablePayload)) s)

end Sys2Proof.Machine
end

