-- ==== Sys2Proof/Machine/ResetLine.lean ====
section
/-! DEFINITION. The reset line and the start-up period (section 11.4): RSTN_LOW, POWER_ON, RSTN_RISE, START_UP_END. -/

namespace Sys2Proof.Machine

/-- R190: every block takes its RSTN value; the queue of waiting commands is not the part's and stays. -/
def State.hold (s : State) : State := State.reset.setPending s.pending

/-- RSTN falls to "L" and holds the part in reset; a selection in progress is abandoned (R190). -/
def execRstnLow (s : State) : Host.Outcome State Fault Refusal := .next s.hold

/-- Power-on acts as RSTN held at "L" (R190). -/
def execPowerOn (s : State) : Host.Outcome State Fault Refusal := .next s.hold

/-- RSTN rises: the timebase starts from 0, the part runs, the start-up period opens (R190), and the held level of ALSIN is the
pin's level (R49), from which the merged state is formed (R50, assumption log 3). With RSTN at "H" already there is no rising edge. -/
def execRstnRise (alsin : Bool) (s : State) : Host.Outcome State Fault Refusal :=
  if s.running then .next s
  else
    .next ((((s.setRunning true).setStartUp true).setTimebase 0).setOps { s.ops with alsin := alsin }).mergeOps

/-- The 2 ms after RSTN rose run out: selections that begin from then on are served (R190). Before 2 ms have passed the event has
not come about, and only time passes. -/
def execStartUpEnd (t : Stamp) (s : State) : Host.Outcome State Fault Refusal :=
  .next (onEvent t (fun s => if Config.startUpTicks ≤ t.toNat then s.setStartUp false else s) s)

end Sys2Proof.Machine
end

