-- ==== Sys2Proof/Machine/Decoder.lean ====
section
/-! DEFINITION. The angle decoder's handling of crank and cam edges (chapter 1). -/

namespace Sys2Proof.Machine

/-! ### Periods (R3, R4) -/

/-- R4: whether a period after period `prev` is a gap. -/
def isGap (img : Image) (prev p : Nat) : Bool :=
  decide (prev ≠ 0) && decide ((2 * img.missing + 1) * prev ≤ 2 * p)

/-- The period an edge at stamp `t` forms, when there is a last accepted edge (R3). -/
def Adec.newPeriod (a : Adec) (t : Stamp) : Option Nat := a.lastEdge.map fun e => elapsed t e

/-- Whether the period an edge at stamp `t` forms is a gap (R4). -/
def Adec.endsGap (a : Adec) (img : Image) (t : Stamp) : Bool :=
  match a.newPeriod t with
  | some p => isGap img a.period p
  | none => false

/-- R3, R4: an accepted edge restarts the stall timer, forms its period and becomes the last accepted edge. -/
def Adec.accept (a : Adec) (img : Image) (t : Stamp) : Adec :=
  match a.newPeriod t with
  | some p =>
    { a with stallRef := t, lastEdge := some t, prevPeriod := a.period, period := p,
             toothPeriod := if isGap img a.period p then p / (img.missing + 1) else p }
  | none => { a with stallRef := t, lastEdge := some t }

/-- R3: the noise filter rejects an edge when four times the ticks since the last accepted edge is less than the last tooth
period. -/
def Adec.rejects (a : Adec) (t : Stamp) : Bool :=
  match a.lastEdge with
  | some e => decide (4 * elapsed t e < a.toothPeriod)
  | none => false

/-- R2: whether an edge of the conditioned crank signal is the tooth edge of the polarity in use. -/
def isToothEdge : Polarity → Edge → Bool
  | .normal, .falling => true
  | .inverted, .rising => true
  | _, _ => false

/-! ### HALTED, SEEK and VERIFY (R5 to R8) -/

/-- R5: an accepted edge in HALTED. -/
def State.crankHalted (s : State) (t : Stamp) : State :=
  s.changeSync t { s.adec.enterSeek (some t) with stallRef := t } .edge

/-- R8: a verify failure counted. -/
def Adec.countFailure (a : Adec) : Adec :=
  { a with verifyFails := bump 255 a.verifyFails, verifyFailTotal := bump 65535 a.verifyFailTotal }

/-- R8: the polarity flip. -/
def Adec.flip (a : Adec) : Adec :=
  { a with polarity := a.polarity.other, verifyFails := 0, flipTotal := bump 65535 a.flipTotal }

/-- R8: a verify failure. `a` is the decoder with the edge accepted, `fromVerify` whether it fails from VERIFY, `gap` whether the
failing period was a gap. -/
def State.verifyFailure (s : State) (t : Stamp) (a : Adec) (fromVerify gap : Bool) : State :=
  let b := a.countFailure
  if s.cfg.active.polMode = 2 ∧ 4 ≤ b.verifyFails then s.changeSync t (b.flip.enterSeek none) .polarityFlip
  else if fromVerify then
    if gap then s.setAdec { b with verifyCount := 0 } else s.changeSync t (b.enterSeek (some t)) .verifyFail
  else s.setAdec { b with seekCount := 0 }

/-- R6: an accepted edge in SEEK. -/
def State.crankSeek (s : State) (t : Stamp) : State :=
  let img := s.cfg.active
  let a := { s.adec.accept img t with seekCount := s.adec.seekCount + 1 }
  if s.adec.endsGap img t then
    s.changeSync t { a with sync := .verify, verifyCount := 0, lastGapEnd := some t } .gapFound
  else if 3 * img.nPos ≤ a.seekCount then s.verifyFailure t a false false
  else s.setAdec a

/-- R10: the revolution time at a gap end: its stamp minus the last gap-end stamp, which it then becomes. -/
def Adec.gapEnd (a : Adec) (t : Stamp) : Adec :=
  { a with trev := a.lastGapEnd.elim 0 fun g => elapsed t g, lastGapEnd := some t }

/-- R7, R10, R2, R8: VERIFY succeeds and the decoder enters CRANK_SYNC. -/
def Adec.verified (a : Adec) (t : Stamp) : Adec :=
  { a.gapEnd t with sync := .crankSync, toothIndex := 0, lastGood := a.polarity, verifyFails := 0 }

/-- R7: an accepted edge in VERIFY. -/
def State.crankVerify (s : State) (t : Stamp) : State :=
  let img := s.cfg.active
  let a := s.adec.accept img t
  let k := s.adec.verifyCount + 1
  if s.adec.endsGap img t then
    if k + img.missing = img.nPos then
      ((s.changeSync t (a.verified t) .verified).noticePeriod a.period).noticeGapEnd t
    else s.verifyFailure t { a with lastGapEnd := some t } true true
  else if img.nPos ≤ k + img.missing then s.verifyFailure t a true false
  else s.setAdec { a with verifyCount := k }

/-! ### The cycle boundary (R15, R16, R17) -/

/-- R15: a cam fault counted. -/
def Adec.countCamFault (a : Adec) : Adec :=
  { a with camFaultTotal := bump 65535 a.camFaultTotal, camFaults := a.camFaults + 1 }

/-- R15: a cam fault in FULL_SYNC that brings the consecutive count to 3 drops the decoder to CRANK_SYNC. -/
def State.camDrop (s : State) (t : Stamp) (a : Adec) : State := s.changeSyncApply t a.dropToCrank .camFault

/-- R15: the decoder after the cam check of a cycle boundary. -/
def Adec.camCheck (a : Adec) : Adec := if a.inWindow then a else a.countCamFault

/-- R16: the mark is cleared for the new cycle and the cycle number increments. -/
def Adec.newCycle (a : Adec) : Adec := { a with inWindow := false, cycle := a.cycle + 1 }

/-- R52, R75: the work of OPS and MFA at a cycle boundary. -/
def State.boundaryWork (s : State) (t : Stamp) : State :=
  (s.setOps (s.ops.boundary s.cfg.active)).blockBoundary t

/-- R81: the events between two angles that a boundary tooth still raises. When the commit that applied there has moved the segment
boundaries, those up to the tooth's own angle count as passed (assumption log 23). -/
def Image.stillDue (img : Image) (moved : Bool) (lo hi : Nat) : List LayoutEvent :=
  if moved then (img.eventsBetween lo hi).filter fun e => decide (e.kind ≠ .segment) else img.eventsBetween lo hi

/-- R17: the angle events that the boundary tooth at cycle angle `x` passes: those left of the old cycle, with the number of that
cycle, then those of the new cycle (assumption log 4). `moved` says that an apply at this boundary has changed the segment offset. -/
def State.boundaryEvents (s : State) (t : Stamp) (x : Nat) (moved : Bool) : State :=
  ((s.setAdec { s.adec with nextAngle := x + 1 }).raiseAll t (s.adec.cycle - 1)
    (s.cfg.active.stillDue moved s.adec.nextAngle (Config.cycleUnits - 1))).raiseAll t s.adec.cycle
      (s.cfg.active.stillDue moved 0 x)

/-- R181, R34: whether the pending commit, applied at this boundary, counts the boundary tooth's events as passed. -/
def State.layoutPending (s : State) : Bool :=
  match s.cfg.pendingCommit with
  | some k => decide (k.cls = .layout)
  | none => false

/-- R81, R181: whether the pending commit, applied at this boundary, changes the segment offset. -/
def State.movesSegments (s : State) : Bool :=
  s.cfg.pendingCommit.isSome && decide (s.cfg.staged.segOffset ≠ s.cfg.active.segOffset)

/-- R181: the apply of a pending commit at a boundary, then the angle events of the boundary tooth at cycle angle `x`. The tooth's
angle is the apply point: after a LAYOUT apply its events count as passed (R34), and after an apply that changes the segment offset
its segment boundaries do (R81; DEDUCED, assumption log 23). -/
def State.finishBoundary (s : State) (t : Stamp) (x : Nat) : State :=
  if s.layoutPending then s.applyPending t
  else if (s.applyPending t).adec.sync = .fullSync then (s.applyPending t).boundaryEvents t x s.movesSegments
  else s.applyPending t

/-- R15, R16: the cam check of the boundary is the third cam fault in a row. -/
def Adec.thirdFault (a : Adec) : Bool := !a.inWindow && decide (3 ≤ a.camCheck.camFaults)

/-- R16: the boundary tooth, at cycle angle `x`. `s` holds the tooth already. -/
def State.cycleBoundary (s : State) (t : Stamp) (x : Nat) : State :=
  if s.adec.thirdFault then s.camDrop t s.adec.camCheck
  else ((s.setAdec s.adec.camCheck.newCycle).boundaryWork t).finishBoundary t x

/-! ### CRANK_SYNC and FULL_SYNC (R3, R9, R12) -/

/-- R9: whether the index before the edge is the gap position N_pos − m − 1. -/
def Adec.atGapPosition (a : Adec) (img : Image) : Bool := decide (img.nPos ≤ a.toothIndex + 1 + img.missing)

/-- R9, R10, R12: the decoder after an accepted edge that keeps crank sync. -/
def Adec.tooth (a : Adec) (img : Image) (t : Stamp) (gap : Bool) : Adec :=
  let b := if gap then (a.accept img t).gapEnd t else a.accept img t
  { b with
    toothIndex := if gap then 0 else a.toothIndex + 1
    toothAngle := (a.toothAngle + (if gap then (img.missing + 1) * img.toothAngle else img.toothAngle)) % Config.cycleUnits }

/-- R17: the results of an accepted edge that keeps crank sync, after the period: gap end, cycle boundary, angle events. -/
def State.toothResults (s : State) (t : Stamp) (gap : Bool) : State :=
  let b := s.adec.tooth s.cfg.active t gap
  let s1 := if gap then (s.setAdec b).noticeGapEnd t else s.setAdec b
  if s.adec.sync = .fullSync then
    if b.toothAngle < s.adec.toothAngle then s1.cycleBoundary t b.toothAngle else s1.reachAngle t b.toothAngle
  else s1

/-- R3, R9: a tooth edge in CRANK_SYNC or FULL_SYNC. -/
def State.crankInSync (s : State) (t : Stamp) : State :=
  let img := s.cfg.active
  if s.adec.rejects t then s.setAdec { s.adec with anomalyTotal := bump 65535 s.adec.anomalyTotal }
  else
    let gap := s.adec.endsGap img t
    let s1 := s.noticePeriod ((s.adec.accept img t).period)
    if gap = s.adec.atGapPosition img then s1.toothResults t gap
    else
      s1.changeSyncApply t
        { (s.adec.accept img t).enterSeek (some t) with syncLossTotal := bump 65535 s.adec.syncLossTotal }
        (if gap then .gapMisplaced else .toothOverrun)

/-- R3: a tooth edge is handled by the rule of the sync state in force. -/
def State.crankTooth (s : State) (t : Stamp) : State :=
  match s.adec.sync with
  | .halted => s.crankHalted t
  | .seek => s.crankSeek t
  | .verify => s.crankVerify t
  | .crankSync | .fullSync => s.crankInSync t

/-! ### Cam edges (R14, R15) -/

/-- R14: the decoder entering FULL_SYNC at cycle angle `x`, `a` being the revolution angle of the cam edge. -/
def Adec.enterFull (d : Adec) (img : Image) (a x : Nat) : Adec :=
  { d with
    sync := .fullSync
    toothAngle := (x + Config.cycleUnits - (a + Config.revUnits - d.toothRevAngle img) % Config.revUnits) % Config.cycleUnits
    camFaults := 0
    inWindow := true }

/-- R14, R31, R160: a selected cam edge in CRANK_SYNC. DESIGN CHOICE (assumption log 19): the SYNC record is offered before the CAPTURE
record of a capture that the FULL_SYNC latch grants and that ends at once (R165). -/
def State.camInCrank (s : State) (t : Stamp) : State :=
  let img := s.cfg.active
  let a := s.adec.revAngle img t
  match camPhase img a with
  | some x => ((s.changeSync t (s.adec.enterFull img a x) .camPhase).position x).noticeFullSync t
  | none => s.setAdec { s.adec with camFaultTotal := bump 65535 s.adec.camFaultTotal }

/-- R15: a selected cam edge in FULL_SYNC. -/
def State.camInFull (s : State) (t : Stamp) : State :=
  let img := s.cfg.active
  if inCamWindow img (s.adec.cycleAngle img t) then s.setAdec { s.adec with inWindow := true, camFaults := 0 }
  else if img.camEdge = 2 then s
  else if 3 ≤ s.adec.countCamFault.camFaults then s.camDrop t s.adec.countCamFault
  else s.setAdec s.adec.countCamFault

/-- R14, R15: a cam edge of the selected direction; in HALTED, SEEK and VERIFY it is ignored. -/
def State.camSelectedEdge (s : State) (t : Stamp) : State :=
  match s.adec.sync with
  | .crankSync => s.camInCrank t
  | .fullSync => s.camInFull t
  | .halted | .seek | .verify => s

end Sys2Proof.Machine
end

