-- ==== Sys2Proof/Machine/Sensors.lean ====
section
/-! DEFINITION. The events at the sensor inputs and of the angle clock: CRANK_EDGE, CAM_EDGE, STALL, ANGLE_REACHED, IGS_EDGE,
ALSIN_EDGE, KNOCK_SAMPLE. -/

namespace Sys2Proof.Machine

/-- CRANK_EDGE: an edge of the conditioned crank signal. Only the tooth edge of the polarity in use acts (R2); it is then
accepted or rejected and handled as R3 says. -/
def execCrankEdge (t : Stamp) (e : Edge) (s : State) : Host.Outcome State Fault Refusal :=
  .next (onEvent t (fun s => if isToothEdge s.adec.polarity e then s.crankTooth t else s) s)

/-- CAM_EDGE: an edge of CAM. Edges of a direction not selected are ignored (R14). -/
def execCamEdge (t : Stamp) (e : Edge) (s : State) : Host.Outcome State Fault Refusal :=
  .next (onEvent t (fun s => if camSelected s.cfg.active e then s.camSelectedEdge t else s) s)

/-- STALL: the stall timer has reached the stall timeout, and the decoder enters HALTED (R18); leaving FULL_SYNC, that applies a
pending commit (R181). While the timer has not run out, or in HALTED, only time passes. -/
def execStall (t : Stamp) (s : State) : Host.Outcome State Fault Refusal :=
  .next (onEvent t (fun s =>
    if s.stallDue t then s.changeSyncApply t (s.adec.enterHalted s.cfg.active) .stall else s) s)

/-- ANGLE_REACHED: in FULL_SYNC the interpolated angle clock has reached the angle of layout events, which are raised at this stamp
(R17). Outside FULL_SYNC ADEC raises no angle events. -/
def execAngleReached (t : Stamp) (s : State) : Host.Outcome State Fault Refusal :=
  .next (onEvent t (fun s =>
    if s.adec.sync = .fullSync then s.reachAngle t (s.adec.cycleAngle s.cfg.active t) else s) s)

/-- R42: a falling edge on a line: the spark of an open record without one. -/
def State.igsFall (s : State) (t : Stamp) (n : Cyl) : State :=
  match s.igsu.get n with
  | some r => s.setIgsu (s.igsu.set n (some (r.spark (s.adec.cycleAngle s.cfg.active t))))
  | none => s

/-- IGS_EDGE: an edge on IGSn. Rising edges are ignored (R42). -/
def execIgsEdge (t : Stamp) (n : Cyl) (e : Edge) (s : State) : Host.Outcome State Fault Refusal :=
  .next (onEvent t (fun s => if e = .falling then s.igsFall t n else s) s)

/-- ALSIN_EDGE: the held level is updated and the merged operating state is formed anew (R49, section 3.3). -/
def execAlsinEdge (t : Stamp) (e : Edge) (s : State) : Host.Outcome State Fault Refusal :=
  .next (onEvent t (fun s => (s.setOps { s.ops with alsin := decide (e = .rising) }).mergeOps) s)

/-- KNOCK_SAMPLE: at a sample instant each converter takes a raw sample (R86, R92). At any other stamp the converters take none. -/
def execKnockSample (t : Stamp) (raw0 raw1 : Half) (s : State) : Host.Outcome State Fault Refusal :=
  .next (onEvent t (fun s => if s.kfe.sampleDue t then s.sample t raw0 raw1 else s) s)

end Sys2Proof.Machine
end

