-- ==== Sys2Proof/Machine/Timers.lean ====
section
/-! DEFINITION. The timers of declarations and of the held capture memory (DECL_EXPIRY, CAPTURE_HOLD_EXPIRY), and the tick of the
timebase, in which every timer that has run out comes forward. -/

namespace Sys2Proof.Machine

/-- R47: whether the timer of a port's declaration has run out. -/
def State.declDue (s : State) (t : Stamp) (p : Port) : Bool :=
  (s.ops.decl.get p).any fun d => decide (d.duration ≤ elapsed t d.start)

/-- R47: a declaration lapses: the slot empties, DECL_EXPIRED is set on that port alone, and the merged state is formed anew. -/
def State.lapse (s : State) (p : Port) : State := (s.setDecl p none).alertOn p alertDecl

/-- DECL_EXPIRY: the declaration timer of a port runs out (R47). With an empty slot or ticks left nothing lapses. -/
def execDeclExpiry (t : Stamp) (p : Port) (s : State) : Host.Outcome State Fault Refusal :=
  .next (onEvent t (fun s => if s.declDue t p then s.lapse p else s) s)

/-- R170: whether the hold timer has run out. -/
def State.holdDue (s : State) (t : Stamp) : Bool :=
  decide (s.cap.unit = .held) && decide (s.cap.holdTicks ≤ elapsed t s.cap.holdStart)

/-- R170: the expiry of a held capture: EXPIRED record and alert, the memory freed, the request out of the list, a grant. -/
def State.expireHold (s : State) (t : Stamp) : State :=
  match s.cap.activeRequest with
  | none => s
  | some r => ((s.emitCapture t r .expired).modCap fun c => (c.freeMemory).removeRequest r.handle).grant t

/-- CAPTURE_HOLD_EXPIRY: the hold timer runs out (R170). While it does not run, or has ticks left, only time passes. -/
def execCaptureHoldExpiry (t : Stamp) (s : State) : Host.Outcome State Fault Refusal :=
  .next (onEvent t (fun s => if s.holdDue t then s.expireHold t else s) s)

/-! ### The tick (R1, assumption log 2) -/

/-- The busy ports whose 20 µs have passed (R186). -/
def State.busyOver (s : State) (p : Port) : Bool :=
  (s.port p).busy && decide (Config.maxBusyTicks ≤ elapsed s.timebase (s.port p).busySince)

/-- R17: whether the interpolated angle has reached a layout event that has not been raised. -/
def State.angleDue (s : State) : Bool :=
  decide (s.adec.sync = .fullSync) &&
    !(s.cfg.active.eventsBetween s.adec.nextAngle (s.adec.cycleAngle s.cfg.active s.timebase)).isEmpty

/-- The events of the part's own timers and of its angle clock that have come about at the timebase's value. -/
def State.dueCommands (s : State) : List Instr :=
  (if s.startUp && decide (Config.startUpTicks ≤ s.timebase.toNat) then [Instr.startUpEnd s.timebase] else []) ++
  (if s.stallDue s.timebase then [Instr.stall s.timebase] else []) ++
  (if s.angleDue then [Instr.angleReached s.timebase] else []) ++
  ((allPorts.filter (s.declDue s.timebase)).map (Instr.declExpiry s.timebase)) ++
  (if s.holdDue s.timebase then [Instr.captureHoldExpiry s.timebase] else []) ++
  ((allPorts.filter s.busyOver).map (Instr.processingDone s.timebase))

/-- R1: one tick of the timebase. It counts while RSTN is at "H". The events that have thereby come about wait in the queue. -/
def State.tick (s : State) : State :=
  if s.running then (s.setTimebase (s.timebase + 1)).setPending (s.setTimebase (s.timebase + 1)).dueCommands else s

end Sys2Proof.Machine
end

