-- ==== Sys2Proof/Machine/Dispatch.lean ====
section
/-! DEFINITION. The meaning of every command: one arm per constructor, each one call. -/

namespace Sys2Proof.Machine

/-- The effect of a command on everything but the queue of waiting commands. -/
def exec (i : Instr) (s : State) : Host.Outcome State Fault Refusal :=
  match i with
  | .rstnLow => Sys2Proof.Machine.execRstnLow s
  | .powerOn => Sys2Proof.Machine.execPowerOn s
  | .rstnRise alsin => Sys2Proof.Machine.execRstnRise alsin s
  | .startUpEnd t => Sys2Proof.Machine.execStartUpEnd t s
  | .crankEdge t e => Sys2Proof.Machine.execCrankEdge t e s
  | .camEdge t e => Sys2Proof.Machine.execCamEdge t e s
  | .stall t => Sys2Proof.Machine.execStall t s
  | .angleReached t => Sys2Proof.Machine.execAngleReached t s
  | .igsEdge t n e => Sys2Proof.Machine.execIgsEdge t n e s
  | .alsinEdge t e => Sys2Proof.Machine.execAlsinEdge t e s
  | .knockSample t raw0 raw1 => Sys2Proof.Machine.execKnockSample t raw0 raw1 s
  | .declExpiry t p => Sys2Proof.Machine.execDeclExpiry t p s
  | .captureHoldExpiry t => Sys2Proof.Machine.execCaptureHoldExpiry t s
  | .selectionStart t p => Sys2Proof.Machine.execSelectionStart t p s
  | .processingDone t p => Sys2Proof.Machine.execProcessingDone t p s
  | .badFrame t p bytes => Sys2Proof.Machine.execBadFrame t p bytes s
  | .unknownCommand t p code payload => Sys2Proof.Machine.execUnknownCommand t p code payload s
  | .noOp t p payload => Sys2Proof.Machine.execNoOp t p payload s
  | .status t p payload => Sys2Proof.Machine.execStatus t p payload s
  | .setAlertMask t p payload => Sys2Proof.Machine.execSetAlertMask t p payload s
  | .clearAlerts t p payload => Sys2Proof.Machine.execClearAlerts t p payload s
  | .portReset t p payload => Sys2Proof.Machine.execPortReset t p payload s
  | .readAngle t p payload => Sys2Proof.Machine.execReadAngle t p payload s
  | .stageRows t p payload => Sys2Proof.Machine.execStageRows t p payload s
  | .readRows t p payload => Sys2Proof.Machine.execReadRows t p payload s
  | .declareState t p payload => Sys2Proof.Machine.execDeclareState t p payload s
  | .readOpstate t p payload => Sys2Proof.Machine.execReadOpstate t p payload s
  | .readMisfire t p payload => Sys2Proof.Machine.execReadMisfire t p payload s
  | .readKnockFront t p payload => Sys2Proof.Machine.execReadKnockFront t p payload s
  | .readKnockState t p payload => Sys2Proof.Machine.execReadKnockState t p payload s
  | .retardReset t p payload => Sys2Proof.Machine.execRetardReset t p payload s
  | .readCylinder t p payload => Sys2Proof.Machine.execReadCylinder t p payload s
  | .readTable t p payload => Sys2Proof.Machine.execReadTable t p payload s
  | .subscribe t p payload => Sys2Proof.Machine.execSubscribe t p payload s
  | .fetchRecords t p payload => Sys2Proof.Machine.execFetchRecords t p payload s
  | .clearQueue t p payload => Sys2Proof.Machine.execClearQueue t p payload s
  | .captureRequest t p payload => Sys2Proof.Machine.execCaptureRequest t p payload s
  | .mark t p payload => Sys2Proof.Machine.execMark t p payload s
  | .captureRead t p payload => Sys2Proof.Machine.execCaptureRead t p payload s
  | .captureRelease t p payload => Sys2Proof.Machine.execCaptureRelease t p payload s
  | .captureCancel t p payload => Sys2Proof.Machine.execCaptureCancel t p payload s
  | .captureStatus t p payload => Sys2Proof.Machine.execCaptureStatus t p payload s
  | .stageGlobal t p payload => Sys2Proof.Machine.execStageGlobal t p payload s
  | .stageTable t p payload => Sys2Proof.Machine.execStageTable t p payload s
  | .readActive t p payload => Sys2Proof.Machine.execReadActive t p payload s
  | .readStaged t p payload => Sys2Proof.Machine.execReadStaged t p payload s
  | .discard t p payload => Sys2Proof.Machine.execDiscard t p payload s
  | .commit t p payload => Sys2Proof.Machine.execCommit t p payload s

end Sys2Proof.Machine
end

