-- ==== Sys2Proof/Machine/Step.lean ====
section
/-! DEFINITION. The step: the command at the front of the queue, or one tick of the timebase when none is waiting. -/

namespace Sys2Proof.Machine

/-- One step. The command at the front of the queue is carried out with the rest waiting; on an empty queue the part idles for one
tick of its timebase (assumption log 2). -/
def step (s : State) : Host.Outcome State Fault Refusal :=
  match s.pending with
  | i :: rest => exec i (s.setPending rest)
  | [] => .next s.tick

/-- The state with the command that a word spells put at the front of the queue. No row of the table gives bits, so no word spells
a command and the state is unchanged. -/
def State.withFetchWord (s : State) (nbits w : Nat) : State :=
  match decodeTableWord nbits w with
  | some i => s.setPending (i :: s.pending)
  | none => s

end Sys2Proof.Machine
end

