-- ==== Sys2Proof/Safety.lean ====
section
/-! DEFINITION. The terms in which claims are stated: a port that is ready to take a request, the state after a request has been
answered, records and alerts as they reach the ports, and the invariants of the part. -/

namespace Sys2Proof.Machine

/-! ### Ports -/

/-- The part runs and a selection that was not answered NOT_READY is in progress on port `p`: the request that select's rising
edge ends is taken (R184, R186). -/
def State.ready (s : State) (p : Port) : Prop := s.running = true ∧ (s.port p).selection = .serving

/-- The state in which port `p` took a request at stamp `t`: the selection has ended and the port is busy (R184, R186). -/
def State.taken (s : State) (p : Port) (t : Stamp) : State :=
  { s with
    timebase := t
    ports := s.ports.set p { s.ports.get p with selection := .idle, dataOut := none, busy := true, busySince := t } }

/-- The state in which the response `r` to the request just taken stands in the buffer of port `p` (R185). -/
def State.withResponse (s : State) (p : Port) (r : Response) : State :=
  { s with ports := s.ports.set p { s.ports.get p with buffer := some r } }

/-- The state after a request that was taken at stamp `t`, answered `r` and changed nothing else. -/
def State.answered (s : State) (p : Port) (t : Stamp) (r : Response) : State := (s.taken p t).withResponse p r

/-- One port's record state with a record offered to it (R145, R146), written out by cases. -/
def offered (r : Record) (x : PortState) : PortState :=
  if x.subscription.getLsbD (r.body.kindCode - 1) = false then x
  else if x.queue.length < 128 then { x with queue := x.queue ++ [r] }
  else { x with dropped := min 65535 (x.dropped + 1), alerts := x.alerts ||| 1#5 }

/-- The ports after a SYNC record: the record is offered to each, and each has SYNC_CHANGE (R20). -/
def syncPorts (ports : PerPort PortState) (r : Record) : PerPort PortState :=
  ports.map fun x => { offered r x with alerts := (offered r x).alerts ||| 2#5 }

/-- The SYNC record of R20. -/
def syncRecord (t : Stamp) (cycle : Half) (state : SyncState) (cause : SyncCause) (polarity : Polarity) : Record :=
  ⟨none, cycle, t, .sync state cause polarity⟩

/-! ### The angle decoder -/

/-- The tooth edge of the polarity in use: the falling edge in NORMAL, the rising edge in INVERTED (R2). -/
def State.toothEdge (s : State) : Edge :=
  match s.adec.polarity with
  | .normal => .falling
  | .inverted => .rising

/-- A period P that follows the period `prev` on a wheel of `m` missing teeth is a gap (R4). -/
def GapPeriod (m prev P : Nat) : Prop := prev ≠ 0 ∧ (2 * m + 1) * prev ≤ 2 * P

/-- The decoder after an accepted edge at stamp `t` that forms the period P, with `tooth` the last tooth period (R3, R4). -/
def Adec.afterPeriod (a : Adec) (t : Stamp) (P tooth : Nat) : Adec :=
  { a with stallRef := t, lastEdge := some t, prevPeriod := a.period, period := P, toothPeriod := tooth }

/-- The decoder cleared on entry to SEEK, with its first edge, when it has one, and the edge count (R4, R6, R10, R15). -/
def Adec.seeking (a : Adec) (first : Option Stamp) (count : Nat) : Adec :=
  { a with
    sync := .seek, period := 0, prevPeriod := 0, toothPeriod := 0, trev := 0, toothIndex := 0, seekCount := count,
    lastEdge := first, camFaults := 0, inWindow := false }

/-- A cycle angle lies in the cam window from lo to hi, which may wrap past 11,519 (R14). -/
def InWindow (lo hi x : Nat) : Prop := (x + 11520 - lo) % 11520 ≤ (hi + 11520 - lo) % 11520

/-- The direction of cam edges that counts: RISING, FALLING or BOTH; with NONE no edge does (section 1.6). -/
def CamCounts (img : Image) (e : Edge) : Prop :=
  (img.camEdge = 0 ∧ e = .rising) ∨ (img.camEdge = 1 ∧ e = .falling) ∨ img.camEdge = 2

/-- What a sync loss event leaves in the blocks that act on it, the capture unit apart: no cursor and no marks (R30, R33), no spark
record (R45), no segment, history or last decided record (R78), no integrator (R98) and no pending instance (R135). The counts, the
gains in use, the filters and the published entries stay. -/
structure LostSync (s u : State) : Prop where
  smap : u.smap = ⟨none, .replicate 6 false⟩
  igsu : u.igsu = ⟨none, none, none, none, none, none⟩
  mfa : u.mfa = { s.mfa with segments := [], history := [], last := none, blockCycles := u.mfa.blockCycles, counts := u.mfa.counts }
  kfe : u.kfe = { s.kfe with chain := ⟨{ s.kfe.chain.s0 with knock := none, guard := none },
                                       { s.kfe.chain.s1 with knock := none, guard := none }⟩ }
  cyt : u.cyt = { s.cyt with pendingList := [] }

/-- No TOOTH capture is recording (R165). -/
def NoToothCapture (s : State) : Prop :=
  s.cap.unit = .filling → ∀ r, s.cap.activeRequest = some r → r.kind ≠ .tooth

/-- No window is being recorded: no KNOCK_RAW capture fills, or it is between two of its windows (R163). -/
def NoWindowRecorded (s : State) : Prop :=
  s.cap.unit = .filling → ∀ r, s.cap.activeRequest = some r → r.kind = .knockRaw → s.cap.window = none

/-- No KNOCK_RAW capture is recording (R163). -/
def NoRawCapture (s : State) : Prop :=
  s.cap.unit = .filling → ∀ r, s.cap.activeRequest = some r → r.kind ≠ .knockRaw

/-- The decoder after an accepted edge at stamp `t` that forms the period `P`, no gap, and keeps crank sync: the next tooth index,
and the next tooth's cycle angle (R9, R12). Outside FULL_SYNC nothing reads the cycle angle, which the model counts on. -/
def Adec.nextTooth (a : Adec) (img : Image) (t : Stamp) (P : Nat) : Adec :=
  { a.afterPeriod t P P with
    toothIndex := a.toothIndex + 1
    toothAngle := (a.toothAngle + img.toothAngle) % 11520 }

/-- The decoder after the gap end at stamp `t` that forms the gap period `P` and keeps crank sync, `g` being the last gap end: tooth
index 0, T_rev since `g`, and the cycle angle past the gap (R9, R10, R12). -/
def Adec.nextGapEnd (a : Adec) (img : Image) (t : Stamp) (P : Nat) (g : Stamp) : Adec :=
  { a.afterPeriod t P (P / (img.missing + 1)) with
    toothIndex := 0
    trev := (t - g).toNat
    lastGapEnd := some t
    toothAngle := (a.toothAngle + (img.missing + 1) * img.toothAngle) % 11520 }

/-- R3, R9: a tooth edge at stamp `t` is accepted and keeps crank sync, and leaves the decoder `a`: no gap below the gap position
N_pos − m − 1, or a gap at it. -/
def KeepsCrankSync (s : State) (t : Stamp) (a : Adec) : Prop :=
  ∃ e : Stamp, s.adec.lastEdge = some e ∧ s.adec.toothPeriod ≤ 4 * (t - e).toNat ∧
    let img := s.cfg.active
    let P := (t - e).toNat
    (¬ GapPeriod img.missing s.adec.period P ∧ s.adec.toothIndex + 1 + img.missing < img.nPos ∧
        a = s.adec.nextTooth img t P) ∨
    (GapPeriod img.missing s.adec.period P ∧ img.nPos ≤ s.adec.toothIndex + 1 + img.missing ∧
        ∃ g : Stamp, s.adec.lastGapEnd = some g ∧ a = s.adec.nextGapEnd img t P g)

/-- R15: the decoder after a cam fault in FULL_SYNC is counted. -/
def Adec.faulted (a : Adec) : Adec :=
  { a with camFaultTotal := min 65535 (a.camFaultTotal + 1), camFaults := a.camFaults + 1 }

/-- R15: the decoder that a third cam fault has dropped to CRANK_SYNC. -/
def Adec.dropped (a : Adec) : Adec :=
  { a.faulted with sync := .crankSync, camFaults := 0, inWindow := false }

/-- R15, R16, R52, R75: the state once the cycle boundary found by an accepted edge at stamp `t` has been taken by ADEC, OPS and MFA,
before a pending commit applies and before the edge's angle events. `a` is the decoder after the edge. A clear in-window mark is a
cam fault; the mark clears and the cycle number counts; the set is evaluated; the block counts one cycle, and at its end every
cylinder at or above the rate limit has its RATE record, in number order, and the counts clear. -/
def afterBoundary (s : State) (t : Stamp) (a : Adec) : State :=
  let img := s.cfg.active
  let checked := if a.inWindow then a else a.faulted
  let blockEnds := decide (img.blockLength ≤ s.mfa.blockCycles + 1)
  let rated := allCyls.filter fun c => decide (img.rateLimit ≤ (s.mfa.counts.get c).block)
  { s with
    timebase := t
    adec := { checked with inWindow := false, cycle := a.cycle + 1 }
    ops :=
      if s.ops.antiLag then { s.ops with set := .setB, tail := 0 }
      else if s.ops.set = .setA then s.ops
      else if img.tailCycles ≤ s.ops.tail + 1 then { s.ops with set := .setA, tail := 0 }
      else { s.ops with tail := s.ops.tail + 1 }
    mfa :=
      if blockEnds then { s.mfa with blockCycles := 0, counts := s.mfa.counts.mapWith fun _ c => { c with block := 0 } }
      else { s.mfa with blockCycles := s.mfa.blockCycles + 1 }
    ports :=
      if blockEnds then
        s.ports.map fun q => rated.foldl
          (fun q c => offered ⟨some c, a.cycle + 1, t, .rate (s.mfa.counts.get c).block img.blockLength⟩ q) q
      else s.ports }

/-! ### Captures -/

/-- R166, R167: what a port has when a capture of its request `r` ends with outcome `o` at stamp `t`, `words` being held: the CAPTURE
record offered to its queue, and the CAPTURE alert. -/
def captureEnded (t : Stamp) (cycle : Half) (r : Request) (o : CapOutcome) (words : Nat) (x : PortState) : PortState :=
  let y := offered ⟨if r.kind = .knockRaw then r.target else none, cycle, t, .capture r.handle o r.kind words⟩ x
  { y with alerts := y.alerts ||| 4#5 }

/-- R166: the state in which the capture of request `r` has ended with outcome `o` at stamp `t`: HELD, the hold timer started with the
active capture hold, and the owner told. -/
def State.captureHeld (s : State) (t : Stamp) (r : Request) (o : CapOutcome) : State :=
  { s with
    cap := { s.cap with unit := .held, window := none, holdStart := t, holdTicks := s.cfg.active.holdMs * 2000 }
    ports := s.ports.set r.port
      (captureEnded t s.adec.cycle r o s.cap.mem.words.length (s.ports.get r.port)) }

/-- R165, R17: what a TOOTH capture takes of an accepted edge that forms the period `P` and is a gap end or not. It starts at its first
gap end; started, it stores the period in the next free word and counts the gap end, and ends READY at its count. -/
def State.toothTaken (s : State) (t : Stamp) (P : Nat) (gapEnd : Bool) : State :=
  match s.cap.activeRequest with
  | none => s
  | some r =>
    if s.cap.unit ≠ .filling ∨ r.kind ≠ .tooth then s
    else if s.cap.started = false then { s with cap := { s.cap with started := gapEnd } }
    else
      let words := s.cap.mem.words
      let stored := if words.length < 4096 then words ++ [BitVec.ofNat 16 (min 65535 P)] else words
      let v : State := { s with cap := { s.cap with mem := ⟨stored⟩, recorded := s.cap.recorded + gapEnd.toNat } }
      if gapEnd = true ∧ s.cap.recorded + 1 = r.count then v.captureHeld t r .ready else v

/-- R17: the state in which an accepted edge at stamp `t` has left the decoder `a` and the capture unit has taken its period and its gap
end, before the results that follow. -/
def State.edgeTaken (s : State) (t : Stamp) (a : Adec) : State :=
  State.toothTaken { s with timebase := t, adec := a } t a.period (decide (a.toothIndex = 0))

/-- R173, R164: the run-list rule of an apply. A KNOCK_RAW capture that is FILLING ends TRUNCATED when its target is not in the active
run list; a window of it still open is marked ABANDONED. -/
def State.runListTaken (s : State) (t : Stamp) : State :=
  match s.cap.activeRequest with
  | none => s
  | some r =>
    if s.cap.unit ≠ .filling ∨ r.kind ≠ .knockRaw ∨ ∃ c ∈ allCyls, r.target = some c ∧ s.cfg.active.hasCyl c = true then s
    else
      let closed : State := match s.cap.window with
        | none => s
        | some w =>
          { s with cap := { s.cap with mem := ⟨s.cap.mem.words.modify (w.header + 3) (· ||| 8#16)⟩, recorded := s.cap.recorded + 1,
                                       window := none } }
      closed.captureHeld t r .truncated

/-- R173: every request that is not ACTIVE back to WAITING with its latches cleared and, outside FULL_SYNC, re-armed: IMMEDIATE alone
latches again at once. -/
def Request.restarted (r : Request) : Request :=
  if r.state = .active then r
  else { r with latched := r.named &&& 1#8, state := if r.named &&& 1#8 = r.named then .triggered else .waiting }

/-- R162: request `r` of a list is the one that a grant takes: TRIGGERED, of the first port in letter order that has a TRIGGERED
request, and the oldest TRIGGERED request of its port. -/
def GrantTakes (l : List Request) (r : Request) : Prop :=
  r.state = .triggered ∧ (∀ q ∈ l, q.state = .triggered → portCode r.port ≤ portCode q.port) ∧
    ∃ before after : List Request, l = before ++ r :: after ∧ ∀ q ∈ before, q.state = .triggered → q.port ≠ r.port

/-- R162, R165: the state in which request `r` has been granted at stamp `t`: it is ACTIVE and the unit FILLING with nothing recorded;
a KNOCK_RAW capture of a cylinder outside the active run list has ended TRUNCATED at once. -/
def State.grantedTo (s : State) (t : Stamp) (r : Request) : State :=
  let v : State :=
    { s with
      cap := { s.cap with
               unit := .filling, active := some r.handle, mem := ⟨[]⟩, recorded := 0, started := false, window := none
               requests := s.cap.requests.map fun q => if q.handle = r.handle then { q with state := .active } else q } }
  if r.kind = .tooth ∨ ∃ c ∈ allCyls, r.target = some c ∧ s.cfg.active.hasCyl c = true then v
  else v.captureHeld t { r with state := .active } .truncated

/-- R162: what a grant makes of a state `s`: while the unit is in use or no request is TRIGGERED nothing, and otherwise the memory goes
to the request that the grant takes. -/
def GrantMade (t : Stamp) (s u : State) : Prop :=
  (s.cap.unit ≠ .free ∨ (∀ q ∈ s.cap.requests, q.state ≠ .triggered) → u = s) ∧
  (s.cap.unit = .free → (∃ q ∈ s.cap.requests, q.state = .triggered) →
    ∃ r, GrantTakes s.cap.requests r ∧ u = s.grantedTo t r)

/-! ### Commits -/

/-- R19: a stall timeout that a commit lowers has passed already at the apply point, outside HALTED. The model compares as R18 does,
with "at or above" (assumption log 9). -/
abbrev StallPassed (t : Stamp) (s : State) : Prop :=
  s.cfg.active.stallMs ≠ s.cfg.staged.stallMs ∧ s.adec.sync ≠ .halted ∧
    s.cfg.staged.stallMs * 2000 ≤ (t - s.adec.stallRef).toNat

/-- R173: no request of a FREE unit is armed by a GEOMETRY apply, because none is named IMMEDIATE alone; a held unit grants none. -/
def NothingArmed (s : State) : Prop :=
  s.cap.unit = .held ∨ (s.cap.unit = .free ∧ ∀ r ∈ s.cap.requests, r.named &&& 1#8 ≠ r.named)

/-- R2: the polarity in use after a GEOMETRY commit of the image. -/
def polarityAfter (img : Image) (p : Polarity) : Polarity :=
  if img.polMode = 0 then .normal else if img.polMode = 1 then .inverted else p

/-- ADEC enters another state, with its SYNC record and the loss events that come with it (R20, R21). -/
def State.entered (s : State) (t : Stamp) (a : Adec) (cause : SyncCause) : State :=
  State.lossEvents { s with adec := a, ports := syncPorts s.ports (syncRecord t a.cycle a.sync cause a.polarity) } t s.adec.sync

/-- R19, R18: the state in which the new image stands and ADEC has taken its part of an apply of class `cls`: at a GEOMETRY apply SEEK
with cause COMMIT, save in HALTED, and then HALTED with cause STALL when the new stall timeout has passed (their order is the model's,
assumption log 9). -/
def State.decoderApplied (s : State) (t : Stamp) (cls : CommitClass) : State :=
  let new := s.cfg.staged
  let v : State := { s with cfg := ⟨new, new, s.cfg.generation + 1, false, none, none⟩ }
  let polarity := polarityAfter new s.adec.polarity
  let w :=
    if cls ≠ .geometry then v
    else if s.adec.sync = .halted then
      { v with adec := { s.adec with polarity := polarity, verifyFails := 0, camFaults := 0 } }
    else v.entered t { s.adec.seeking none 0 with polarity := polarity, verifyFails := 0 } .commit
  if StallPassed t s then
    w.entered t
      { w.adec with
        sync := .halted, period := 0, prevPeriod := 0, toothPeriod := 0, trev := 0, toothIndex := 0, lastEdge := none,
        verifyFails := 0, camFaults := 0, inWindow := false
        polarity := if new.polMode = 2 then w.adec.lastGood else w.adec.polarity } .stall
  else w

/-- R182, step 5: the CONFIG record of the commit and CONFIG_APPLIED on every port. -/
def configPorts (ports : PerPort PortState) (t : Stamp) (cycle : Half) (generation : BitVec 32) (p : Port) (cls : CommitClass) :
    PerPort PortState :=
  ports.map fun x =>
    let y := offered ⟨none, cycle, t, .config generation p cls⟩ x
    { y with alerts := y.alerts ||| 8#5 }

/-- R182: what an apply at stamp `t` of a commit of class `cls` by port `p` makes of the state `s` that stands before it, block by
block. In `s` the active image is the old one and the staged image the new one. -/
structure Applied (t : Stamp) (cls : CommitClass) (p : Port) (s u : State) : Prop where
  /-- Steps 1 to 3: the new image, the generation, the staging state. -/
  cfg : u.cfg = ⟨s.cfg.staged, s.cfg.staged, s.cfg.generation + 1, false, none, none⟩
  /-- What no apply touches. -/
  stands : u.running = s.running ∧ u.startUp = s.startUp ∧ u.timebase = s.timebase ∧ u.pending = s.pending
  /-- ADEC at a CALIBRATION or LAYOUT apply: only the passed angle, which a LAYOUT apply moves with the cursor (R19, R34). -/
  adecStands : cls ≠ .geometry → ¬ StallPassed t s → u.adec = { s.adec with nextAngle := u.adec.nextAngle }
  /-- ADEC at a GEOMETRY apply in HALTED (R19, R2). -/
  adecHalted : cls = .geometry → s.adec.sync = .halted →
    u.adec = { s.adec with polarity := polarityAfter s.cfg.staged s.adec.polarity, verifyFails := 0, camFaults := 0 }
  /-- ADEC at a GEOMETRY apply in any other state: SEEK without a first edge (R19, R6, R2). -/
  adecSeek : cls = .geometry → s.adec.sync ≠ .halted → ¬ StallPassed t s →
    u.adec = { s.adec.seeking none 0 with
               polarity := polarityAfter s.cfg.staged s.adec.polarity, verifyFails := 0 }
  /-- ADEC when the new stall timeout has passed (R19, R18). -/
  adecStall : StallPassed t s →
    u.adec.sync = .halted ∧ u.adec.period = 0 ∧ u.adec.prevPeriod = 0 ∧ u.adec.toothPeriod = 0 ∧ u.adec.trev = 0 ∧
      u.adec.toothIndex = 0 ∧ u.adec.lastEdge = none ∧ u.adec.verifyFails = 0 ∧ u.adec.camFaults = 0 ∧
      u.adec.cycle = s.adec.cycle
  /-- SMAP and IGSU at a CALIBRATION apply (R35, R45). -/
  smapStands : cls = .calibration → ¬ StallPassed t s →
    u.smap = s.smap ∧ u.igsu = s.igsu ∧ u.adec.nextAngle = s.adec.nextAngle
  /-- SMAP and IGSU at a LAYOUT apply: marks and spark records cleared, and in FULL_SYNC the cursor on the slot of the new layout that
  contains the angle `a` of the apply point, with the events up to it passed (R34, R45). -/
  smapLayout : cls = .layout → ¬ StallPassed t s →
    u.igsu = ⟨none, none, none, none, none, none⟩ ∧ u.smap.marks = .replicate 6 false ∧
      (s.adec.sync = .fullSync →
        let a := s.adec.cycleAngle s.cfg.staged t
        u.smap.cursor = some (s.cfg.staged.runStart + a / (11520 / s.cfg.staged.slots)) ∧ u.adec.nextAngle = a + 1) ∧
      (s.adec.sync ≠ .fullSync → u.smap.cursor = s.smap.cursor ∧ u.adec.nextAngle = s.adec.nextAngle)
  /-- SMAP at a GEOMETRY apply (R35). -/
  smapGeometry : cls = .geometry → u.smap.marks = .replicate 6 false
  /-- The sync loss of an apply that leaves FULL_SYNC (R21, R30, R33, R45, R78, R98, R135). -/
  lost : s.adec.sync = .fullSync → (cls = .geometry ∨ StallPassed t s) →
    u.smap = ⟨none, .replicate 6 false⟩ ∧ u.igsu = ⟨none, none, none, none, none, none⟩ ∧
      u.mfa.segments = [] ∧ u.mfa.history = [] ∧ u.mfa.last = none ∧ u.cyt.pendingList = [] ∧
      ∀ σ : Sensor, (u.kfe.chain.get σ).knock = none ∧ (u.kfe.chain.get σ).guard = none
  /-- OPS: changed ALSIN settings form the merged state anew (R49). -/
  ops : u.ops =
    if s.cfg.active.alsinEnable ≠ s.cfg.staged.alsinEnable ∨ s.cfg.active.alsinActive ≠ s.cfg.staged.alsinActive then
      s.ops.merge s.cfg.staged
    else s.ops
  /-- MFA at a CALIBRATION apply that keeps the segment offset (R82). -/
  mfaStands : cls = .calibration → ¬ StallPassed t s → s.cfg.active.segOffset = s.cfg.staged.segOffset → u.mfa = s.mfa
  /-- MFA at a CALIBRATION apply that changes the segment offset: the segment list empty, history, counts and block kept, and every
  instance without a misfire part decided NOT_ASSESSED WARMUP in the list's order, of which those with a knock part complete (R81,
  R72, R133). -/
  mfaMoved : cls = .calibration → ¬ StallPassed t s → s.cfg.active.segOffset ≠ s.cfg.staged.segOffset →
    (s.cyt.pendingList.map fun i => (i.slot, i.cycle)).Nodup →
    u.mfa.segments = [] ∧ u.mfa.history = s.mfa.history ∧ u.mfa.counts = s.mfa.counts ∧
      u.mfa.blockCycles = s.mfa.blockCycles ∧
      u.mfa.last = ((s.cyt.pendingList.filter fun i => i.misfire.isNone).getLast?.map fun i =>
        ⟨i.slot, i.cycle, (i.spark.bind (·.cut)).isSome⟩) ∧
      u.cyt.pendingList = (s.cyt.pendingList.filter fun i => i.misfire.isSome || i.knock.isNone).map fun i =>
        if i.misfire.isSome then i
        else { i with misfire := some ⟨⟨.notAssessed, some .warmup, none⟩, (s.mfa.counts.get i.cyl).cons,
                                       (s.mfa.counts.get i.cyl).block⟩ }
  /-- MFA at a LAYOUT or GEOMETRY apply (R80). -/
  mfaRunList : cls ≠ .calibration → ¬ StallPassed t s →
    u.mfa.segments = [] ∧ u.mfa.history = [] ∧ u.mfa.last = none ∧ u.mfa.blockCycles = s.mfa.blockCycles ∧
      ∀ c : Cyl, u.mfa.counts.get c = if s.cfg.staged.hasCyl c then s.mfa.counts.get c else ⟨0, false, 0⟩
  /-- KFE's gains in use and low-run counts (R97). -/
  gains : ∀ r, r < 12 →
    let o := s.cfg.active.row r
    let n := s.cfg.staged.row r
    u.kfe.rowGain r =
      if cls = .geometry ∨ o.initGain ≠ n.initGain ∨ (o.autoRange = true ∧ n.autoRange = false) then ⟨n.initGain, 0⟩
      else s.kfe.rowGain r
  /-- KFE's chains: at a LAYOUT apply the open integrators are discarded; stage gains and filters stand (R98, R88). -/
  chains : ∀ σ : Sensor,
    (u.kfe.chain.get σ).stage = (s.kfe.chain.get σ).stage ∧ (u.kfe.chain.get σ).filter = (s.kfe.chain.get σ).filter ∧
      (cls = .layout → (u.kfe.chain.get σ).knock = none ∧ (u.kfe.chain.get σ).guard = none) ∧
      (cls = .calibration → ¬ StallPassed t s → u.kfe.chain.get σ = s.kfe.chain.get σ)
  /-- KNA: the retard maximum, the reference floor, the start value of a GEOMETRY apply and the cylinders that leave (R123 to
  R126). -/
  kna : ∀ c : Cyl,
    let o := s.cfg.active
    let n := s.cfg.staged
    let x := s.kna.cyl.get c
    let leaves := cls ≠ .calibration ∧ n.hasCyl c = false
    u.kna.cyl.get c =
      { ref := if cls = .geometry then max n.refInit n.refFloor else if o.refFloor < n.refFloor then max n.refFloor x.ref else x.ref
        retard := if leaves then 0 else if n.retardMax < o.retardMax then min n.retardMax x.retard else x.retard
        recovery := if leaves then 0 else x.recovery }
  /-- KNA's guard references (R124, R125). -/
  gref : ∀ σ : Sensor,
    let o := s.cfg.active
    let n := s.cfg.staged
    let x := s.kna.gref.get σ
    u.kna.gref.get σ = if cls = .geometry then max n.refInit n.refFloor else if o.refFloor < n.refFloor then max n.refFloor x else x
  /-- CYT's list at a LAYOUT or GEOMETRY apply (R135), and at a CALIBRATION apply that keeps the segment offset. -/
  list : (cls ≠ .calibration → u.cyt.pendingList = []) ∧
    (cls = .calibration → ¬ StallPassed t s → s.cfg.active.segOffset = s.cfg.staged.segOffset →
      u.cyt.pendingList = s.cyt.pendingList)
  /-- CYT's entries, save those that complete at a change of the segment offset: the in-use marks and the rewrites (R137, R139). -/
  entries : cls ≠ .calibration ∨ s.cfg.active.segOffset = s.cfg.staged.segOffset → ∀ c : Cyl,
    let o := s.cfg.active
    let n := s.cfg.staged
    let x := s.cyt.entry.get c
    let leaves := cls ≠ .calibration ∧ o.hasCyl c = true ∧ n.hasCyl c = false
    u.cyt.entry.get c =
      { x with
        inUse := if cls = .calibration then x.inUse else n.hasCyl c
        retard := if leaves then 0
          else if n.retardMax < o.retardMax ∧ n.retardMax < (s.kna.cyl.get c).retard then n.retardMax else x.retard
        recovery := if leaves then 0 else x.recovery }
  /-- CAP: an apply that ends no capture and arms no request leaves it (R173). -/
  capStands : ¬ StallPassed t s → (cls = .calibration ∧ s.cfg.active.segOffset = s.cfg.staged.segOffset) ∨
      (cls = .layout ∧ NoRawCapture s) → u.cap = s.cap
  /-- CAP: the run-list rule (R173, R166): a KNOCK_RAW capture of a cylinder outside the new run list ends and is held. -/
  capRunList : cls ≠ .calibration → ∀ r, s.cap.unit = .filling → s.cap.activeRequest = some r → r.kind = .knockRaw →
    (∀ c, r.target = some c → s.cfg.staged.hasCyl c = false) →
    u.cap.unit = .held ∧ u.cap.active = s.cap.active ∧ u.cap.window = none ∧ u.cap.holdStart = t ∧
      u.cap.holdTicks = s.cfg.staged.holdMs * 2000 ∧ (cls = .layout → u.cap.requests = s.cap.requests)
  /-- CAP: the re-arming at a GEOMETRY apply that grants nothing (R173). -/
  capRearmed : cls = .geometry → NothingArmed s →
    u.cap = { s.cap with
              requests := s.cap.requests.map fun r =>
                if r.state = .active then r
                else { r with latched := r.named &&& 1#8, state := if r.named &&& 1#8 = r.named then .triggered else .waiting } }
  /-- MFA, CYT and CAP at a CALIBRATION apply that changes the segment offset, and so everything (R81): behind the clamped retards (R139)
  the undecided instances take their forced decisions one by one in the list's order, each with its completion when the knock part is
  there (R133, R134), and the CONFIG record follows. -/
  forced : cls = .calibration → ¬ StallPassed t s → s.cfg.active.segOffset ≠ s.cfg.staged.segOffset →
    (s.cyt.pendingList.map fun i => (i.slot, i.cycle)).Nodup →
    ∃ e : PerCyl Entry,
      (∀ c : Cyl, e.get c =
        let n := s.cfg.staged.retardMax
        if n < s.cfg.active.retardMax ∧ n < (s.kna.cyl.get c).retard then { s.cyt.entry.get c with retard := n }
        else s.cyt.entry.get c) ∧
      let x : State :=
        { s with cfg := u.cfg, ops := u.ops, kna := u.kna, mfa := { s.mfa with last := none }, cyt := { s.cyt with entry := e } }
      let y := (s.cyt.pendingList.filter fun i => i.misfire.isNone).foldl
        (fun v i => v.applyMisfire t i ⟨.notAssessed, some .warmup, none⟩) x
      u = { y with
            mfa := { y.mfa with segments := [] }, kfe := { y.kfe with rows := u.kfe.rows }
            ports := configPorts y.ports t s.adec.cycle (s.cfg.generation + 1) p cls }
  /-- CAP and the records at any other CALIBRATION apply: only a passed stall timeout ends a capture (R173, R166). -/
  capCalibration :
    let v := s.decoderApplied t cls
    cls = .calibration → s.cfg.active.segOffset = s.cfg.staged.segOffset ∨ v.cyt.pendingList = [] →
    u.cap = v.cap ∧ u.ports = configPorts v.ports t s.adec.cycle (s.cfg.generation + 1) p cls
  /-- CAP and the records at a LAYOUT apply (R173, R164): behind ADEC's part each sensor's open knock window is abandoned, which may end
  the capture READY at its count, and then the run-list rule is taken. -/
  capLayout :
    let v := s.decoderApplied t cls
    let told : Sensor → State → State := fun σ x => if (v.kfe.chain.get σ).knock.isSome then x.noticeAbandon t σ true else x
    cls = .layout →
    let w := (told .ks1 (told .ks0 { u with cap := v.cap, ports := v.ports })).runListTaken t
    u.cap = w.cap ∧ u.ports = configPorts w.ports t s.adec.cycle (s.cfg.generation + 1) p cls
  /-- CAP and the records at a GEOMETRY apply (R173, R166, R162): behind ADEC's part with its loss events the run-list rule is taken, the
  requests that are not ACTIVE start anew, and a grant follows. -/
  capGeometry :
    let v := s.decoderApplied t cls
    cls = .geometry → (s.cap.requests.map (·.handle)).Nodup →
    let w := State.runListTaken { u with cap := v.cap, ports := v.ports } t
    ∃ x : State, GrantMade t { w with cap := { w.cap with requests := w.cap.requests.map Request.restarted } } x ∧
      u.cap = x.cap ∧ u.ports = configPorts x.ports t s.adec.cycle (s.cfg.generation + 1) p cls
  /-- Step 5 on every port: CONFIG_APPLIED. -/
  alert : ∀ q : Port, (u.ports.get q).alerts.getLsbD 3 = true
  /-- Step 5 where no other record comes with the apply: one CONFIG record offered to every port. -/
  record : ¬ StallPassed t s →
    (cls = .calibration ∧ s.cfg.active.segOffset = s.cfg.staged.segOffset) ∨ (cls = .layout ∧ NoRawCapture s) ∨
      (cls = .geometry ∧ s.adec.sync = .halted ∧ NothingArmed s) →
    u.ports = s.ports.map fun x =>
      let y := offered ⟨none, s.adec.cycle, t, .config (s.cfg.generation + 1) p cls⟩ x
      { y with alerts := y.alerts ||| 8#5 }
  /-- Step 5 behind ADEC's SYNC record of cause COMMIT (R19, R20). -/
  recordBehindSync : ¬ StallPassed t s → cls = .geometry → s.adec.sync ≠ .halted → NothingArmed s →
    u.ports = (syncPorts s.ports (syncRecord t s.adec.cycle .seek .commit (polarityAfter s.cfg.staged s.adec.polarity))).map
      fun x =>
        let y := offered ⟨none, s.adec.cycle, t, .config (s.cfg.generation + 1) p cls⟩ x
        { y with alerts := y.alerts ||| 8#5 }

/-! ### Payloads -/

/-- A payload as the tables of the chapters list it: fields of a width in bytes and a value, each most significant byte first. -/
def layout (fields : List (Nat × Nat)) : List Byte :=
  fields.flatMap fun f => (List.range f.1).map fun i => BitVec.ofNat 8 (f.2 / 256 ^ (f.1 - 1 - i))

/-- A field of flags, bit 0 first. -/
def bits (flags : List Bool) : Nat := flags.foldr (fun b n => b.toNat + 2 * n) 0

/-- A signed value as a field of 2 bytes, in two's complement. -/
def twos (x : Int) : Nat := (x % 65536).toNat

/-- The fields of a published entry, 40 bytes, as section 7.6 lists them. An absent field is sent as 0. -/
def entryFields (e : Entry) : List (Nat × Nat) :=
  [(1, bits [e.inUse, e.assessed]), (1, e.row), (2, e.cycle.toNat),
   (1, e.misfire.verdict.code * 16 + misfireReasonCode e.misfire.reason),
   (2, match e.misfire.index with | some x => twos x.d | none => 0),
   (2, match e.misfire.index with | some x => x.limit | none => 0),
   (2, match e.misfire.index with | some x => x.w | none => 0),
   (1, e.cons), (2, e.block),
   (1, e.knock.verdict.code * 16 + knockReasonCode e.knock.reason),
   (2, e.knock.k.getD 0), (3, e.knock.inorm.getD 0), (1, e.knock.gain.value),
   (1, e.knock.guard.code + 4 * cutCode e.spark.cut), (2, e.knock.q.getD 0), (3, e.ref), (1, e.retard), (1, e.recovery),
   (2, twos (e.spark.angle.getD 0)),
   (1, bits [decide (e.set = .setB), e.stale, e.spark.angle.isSome, e.misfire.index.isSome, e.knock.k.isSome,
             e.knock.inorm.isSome, e.knock.q.isSome]),
   (2, e.life.misfires), (2, e.life.knocks), (2, e.life.noise), (2, e.life.cuts)]

/-- The fields of a row, 12 bytes, as R39 lists them. -/
def rowFields (img : Image) (r : Nat) : List (Nat × Nat) :=
  let x := img.row r
  [(1, cylNumber x.cyl), (1, x.sensor.number), (2, x.knockStart), (2, x.knockLen), (2, x.guardStart), (2, x.guardLen),
   (1, x.initGain.value), (1, bits [x.autoRange, decide (img.runStart ≤ r ∧ r ≤ img.runEnd)])]

/-- The sections of an image as fields (R178). -/
def sectionFields (img : Image) : Nat → List (Nat × Nat)
  | 0 => (List.range 33).map fun k => (4, img.item (k + 1))
  | 1 => (List.range 64).map fun i => (2, vget 0 img.misfireA i)
  | 2 => (List.range 64).map fun i => (2, vget 0 img.misfireB i)
  | 3 => (List.range 16).map fun i => (2, vget 0 img.knockA i)
  | _ => (List.range 16).map fun i => (2, vget 0 img.knockB i)

/-! ### Invariants -/

/-- R146: every record queue holds at most 128 records. -/
def QueuesFit (s : State) : Prop := ∀ p : Port, (s.ports.get p).queue.length ≤ 128

/-- R156: the capture memory is in its canonical form, at most 6 requests are held, and at most 2 of any one port. -/
def CaptureFits (s : State) : Prop :=
  s.cap.mem.wf = true ∧ s.cap.requests.length ≤ 6 ∧
    ∀ p : Port, (s.cap.requests.filter fun r => decide (r.port = p)).length ≤ 2

/-- R157, R159, R160, R162: the requests and the unit agree. Handles are distinct and lie from 1 to 255, latched conditions are named
conditions and a request waits exactly until all of them are latched, the ACTIVE request is the one that the unit names and the unit is
FREE exactly when it names none, and while the unit is FREE no request is TRIGGERED. -/
structure CaptureAgrees (s : State) : Prop where
  fits : CaptureFits s
  next : 1 ≤ s.cap.nextHandle ∧ s.cap.nextHandle ≤ 255
  distinct : (s.cap.requests.map (·.handle)).Nodup
  range : ∀ r ∈ s.cap.requests, 1 ≤ r.handle ∧ r.handle ≤ 255
  latches : ∀ r ∈ s.cap.requests, r.latched &&& r.named = r.latched
  waits : ∀ r ∈ s.cap.requests, r.state = .waiting ↔ r.latched ≠ r.named
  free : s.cap.unit = .free ↔ s.cap.active = none
  named : ∀ h, s.cap.active = some h → ∃ r ∈ s.cap.requests, r.handle = h ∧ r.state = .active
  active : ∀ r ∈ s.cap.requests, r.state = .active → s.cap.active = some r.handle
  granted : s.cap.unit = .free → ∀ r ∈ s.cap.requests, r.state ≠ .triggered

/-- R181, R183, R2: a pending commit stands only in FULL_SYNC, waits with timing AT_CYCLE, passed every check, and its class still
describes the difference between the images; and with polarity mode NORMAL or INVERTED the polarity in use equals the mode. -/
structure CommitAgrees (s : State) : Prop where
  sync : s.cfg.pendingCommit.isSome → s.adec.sync = .fullSync
  timing : ∀ k, s.cfg.pendingCommit = some k → k.timing = .atCycle
  cls : ∀ k, s.cfg.pendingCommit = some k → k.cls = commitClass s.cfg.active s.cfg.staged
  checked : s.cfg.pendingCommit.isSome → failedCheck s.cfg.staged = none
  normal : s.cfg.active.polMode = 0 → s.adec.polarity = .normal
  inverted : s.cfg.active.polMode = 1 → s.adec.polarity = .inverted

/-- R25: every field of a row lies in its range. -/
def Row.inRange (r : Row) : Bool :=
  decide (r.knockStart ≤ 2880) && decide (16 ≤ r.knockLen) && decide (r.knockLen ≤ 2880) && decide (r.guardStart ≤ 5760) &&
    (decide (r.guardLen = 0) || (decide (16 ≤ r.guardLen) && decide (r.guardLen ≤ 2880)))

/-- Section 10.1: every item, every row field and every table entry of an image lies in its staged range. -/
structure ImageInRange (img : Image) : Prop where
  items : ∀ k, 1 ≤ k → k ≤ 33 → itemInRange k (img.item k) = true
  rows : ∀ r, r < 12 → (img.row r).inRange = true
  misfireA : ∀ v ∈ img.misfireA.toList, 1 ≤ v ∧ v ≤ 32767
  misfireB : ∀ v ∈ img.misfireB.toList, 1 ≤ v ∧ v ≤ 32767
  knockA : ∀ v ∈ img.knockA.toList, 256 ≤ v ∧ v ≤ 16383
  knockB : ∀ v ∈ img.knockB.toList, 256 ≤ v ∧ v ≤ 16383

/-- R175, R180: both images hold values in their staged ranges only, and the active image passes every commit check. -/
structure ImagesAgree (s : State) : Prop where
  commit : CommitAgrees s
  active : ImageInRange s.cfg.active
  staged : ImageInRange s.cfg.staged
  passes : failedCheck s.cfg.active = none

/-- R105: every knock reference and guard reference lies between the active reference floor and 2,097,120, and every retard is at
most the active retard maximum. -/
structure KnockStateFits (s : State) : Prop where
  images : ImagesAgree s
  retards : ∀ c : Cyl, (s.kna.cyl.get c).retard ≤ s.cfg.active.retardMax
  refs : ∀ c : Cyl, s.cfg.active.refFloor ≤ (s.kna.cyl.get c).ref ∧ (s.kna.cyl.get c).ref ≤ 2097120
  grefs : ∀ σ : Sensor, s.cfg.active.refFloor ≤ s.kna.gref.get σ ∧ s.kna.gref.get σ ≤ 2097120

/-- R97: a row whose auto-range is off has its initial gain as gain in use. -/
def GainsAgree (s : State) : Prop :=
  ∀ r, r < 12 → (s.cfg.active.row r).autoRange = false → (s.kfe.rowGain r).gain = (s.cfg.active.row r).initGain

/-- R30, R31: the cursor is positioned in FULL_SYNC alone, and then names a row between the run list's start and end rows. -/
structure CursorAgrees (s : State) : Prop where
  images : ImagesAgree s
  positioned : s.smap.cursor.isSome ↔ s.adec.sync = .fullSync
  inRun : ∀ r, s.smap.cursor = some r → s.cfg.active.runStart ≤ r ∧ r ≤ s.cfg.active.runEnd

end Sys2Proof.Machine
end

