-- ==== Sys2Proof/Certificates/Slice0/Obligations.lean ====
section
/-! DEFINITION. The statements about the model, for the provers. Each docstring names the rules of spec/ that the statement
formalises. `t` is the stamp of an event, `s` the state before it. -/

open Sys2Proof Sys2Proof.Machine

/-! ### The step and the reset line -/

/-- The step carries out the command at the front of the queue with the queue's rest waiting; with no command waiting the part idles:
held in reset nothing happens, and running its timebase counts one tick, and the commands of its own that have thereby come due wait in
the queue. Those are START_UP_END at 4,000 ticks of the start-up period, STALL at the stall timeout, ANGLE_REACHED when the interpolated
angle has reached a layout event, the DECL_EXPIRY of each declaration and the CAPTURE_HOLD_EXPIRY of a held capture whose durations
have passed, and the PROCESSING_DONE of each port busy for 40 ticks. The queue and the idle tick are the model's choice (assumption
logs 2 and 17). -/
def Obligations.StepRunsTheFrontCommand : Prop :=
  (∀ (c : Instr) (s : State), step { s with pending := c :: s.pending } = exec c s) ∧
  (∀ s : State, s.pending = [] → s.running = false → step s = .next s) ∧
  (∀ s : State, s.pending = [] → s.running = true →
    step s = .next { s with timebase := s.timebase + 1
                            pending := ({ s with timebase := s.timebase + 1 } : State).dueCommands }) ∧
  (∀ (s : State) (c : Instr),
    let now := s.timebase
    c ∈ s.dueCommands ↔
      (c = .startUpEnd now ∧ s.startUp = true ∧ 4000 ≤ now.toNat) ∨
      (c = .stall now ∧ s.adec.sync ≠ .halted ∧ s.cfg.active.stallMs * 2000 ≤ (now - s.adec.stallRef).toNat) ∨
      (c = .angleReached now ∧ s.adec.sync = .fullSync ∧
        ∃ e ∈ s.cfg.active.layoutEvents, s.adec.nextAngle ≤ e.cycleAngle ∧ e.cycleAngle ≤ s.adec.cycleAngle s.cfg.active now) ∨
      (∃ (p : Port) (d : Declaration), c = .declExpiry now p ∧ s.ops.decl.get p = some d ∧ d.duration ≤ (now - d.start).toNat) ∨
      (c = .captureHoldExpiry now ∧ s.cap.unit = .held ∧ s.cap.holdTicks ≤ (now - s.cap.holdStart).toNat) ∨
      (∃ p : Port, c = .processingDone now p ∧ (s.ports.get p).busy = true ∧ 40 ≤ (now - (s.ports.get p).busySince).toNat))

/-- R22: RSTN low and power-on reset the decoder to the values of its table, with the active image at its defaults; and the first
edge after RSTN rises is accepted from HALTED, the start-up period notwithstanding. -/
def Obligations.DecoderAfterReset : Prop :=
  ∀ s : State, ∃ u : State, exec .rstnLow s = .next u ∧ exec .powerOn s = .next u ∧
    u.adec.sync = .halted ∧ u.adec.polarity = .normal ∧ u.adec.lastGood = .normal ∧
    u.adec.period = 0 ∧ u.adec.prevPeriod = 0 ∧ u.adec.toothPeriod = 0 ∧ u.adec.seekCount = 0 ∧ u.adec.toothIndex = 0 ∧
    u.adec.lastEdge = none ∧ u.adec.lastGapEnd = none ∧ u.adec.trev = 0 ∧ u.adec.rpm = 0 ∧ u.adec.band = 0 ∧
    u.adec.overspeed = false ∧ u.angleReport = (0, 0) ∧ u.adec.cycle = 0 ∧ u.adec.verifyFails = 0 ∧ u.adec.camFaults = 0 ∧
    u.adec.inWindow = false ∧ u.adec.anomalyTotal = 0 ∧ u.adec.syncLossTotal = 0 ∧ u.adec.camFaultTotal = 0 ∧
    u.adec.flipTotal = 0 ∧ u.adec.verifyFailTotal = 0 ∧ u.cfg.active = defaultImage ∧
    ∀ (level : Bool) (t : Stamp), ∃ v w : State,
      exec (.rstnRise level) u = .next v ∧ v.startUp = true ∧ exec (.crankEdge t .falling) v = .next w ∧
      w.adec.sync = .seek ∧ w.adec.seekCount = 1 ∧ w.adec.lastEdge = some t

/-- R190: RSTN low and power-on hold the part at its reset state with the queue of waiting commands kept. When RSTN rises the
timebase starts from 0, the start-up period opens and the held ALSIN level is the pin's; with RSTN high already nothing happens.
The start-up period ends once 4,000 ticks have passed. The model's own in this: what the reset state holds where no rule gives a
reset value (DESIGN CHOICE, assumption log 7), the queue that is kept (DESIGN CHOICE, log 17), the merged state formed anew at the rise
(DEDUCED, log 3), and a START_UP_END before 4,000 ticks, which only lets time pass (DEDUCED, log 14). -/
def Obligations.ResetLine : Prop :=
  (∀ s : State, exec .rstnLow s = .next { State.reset with pending := s.pending }) ∧
  (∀ s : State, exec .powerOn s = .next { State.reset with pending := s.pending }) ∧
  (∀ (level : Bool) (s : State), s.running = true → exec (.rstnRise level) s = .next s) ∧
  (∀ (level : Bool) (s : State), s.running = false →
    exec (.rstnRise level) s = .next
      { s with running := true, startUp := true, timebase := 0,
               ops := Ops.merge { s.ops with alsin := level } s.cfg.active }) ∧
  (∀ (t : Stamp) (s : State), s.running = true → 4000 ≤ t.toNat →
    exec (.startUpEnd t) s = .next { s with timebase := t, startUp := false }) ∧
  (∀ (t : Stamp) (s : State), s.running = true → t.toNat < 4000 →
    exec (.startUpEnd t) s = .next { s with timebase := t })

/-- R190: while RSTN is at "L" the part is held in reset. Every command but the three of the reset line leaves it as it stands. -/
def Obligations.HeldInReset : Prop :=
  ∀ (c : Instr) (s : State), s.running = false → c ≠ .rstnLow → c ≠ .powerOn → (∀ level, c ≠ .rstnRise level) →
    exec c s = .next s

/-! ### The angle decoder -/

/-- R2, R14, R5 to R7, R42: an edge of the crank signal that is not the tooth edge, a cam edge of a direction that does not count or
in HALTED, SEEK or VERIFY, and a rising edge on an ignition sense line change nothing but the time. -/
def Obligations.UnusedEdges : Prop :=
  (∀ (t : Stamp) (e : Edge) (s : State), s.running = true → e ≠ s.toothEdge →
    exec (.crankEdge t e) s = .next { s with timebase := t }) ∧
  (∀ (t : Stamp) (e : Edge) (s : State), s.running = true → ¬ CamCounts s.cfg.active e →
    exec (.camEdge t e) s = .next { s with timebase := t }) ∧
  (∀ (t : Stamp) (e : Edge) (s : State), s.running = true →
    (s.adec.sync = .halted ∨ s.adec.sync = .seek ∨ s.adec.sync = .verify) →
    exec (.camEdge t e) s = .next { s with timebase := t }) ∧
  (∀ (t : Stamp) (n : Cyl) (s : State), s.running = true →
    exec (.igsEdge t n .rising) s = .next { s with timebase := t })

/-- R5, R20: a tooth edge in HALTED puts the decoder into SEEK with that edge as its first, restarts the stall timer, and emits a SYNC
record of cause EDGE with SYNC_CHANGE on every port. Nothing else changes. That HALTED holds no last edge, so that this edge forms no period
and is never rejected, and that the tooth index is 0 in SEEK is DEDUCED (assumption log 15). -/
def Obligations.ToothEdgeInHalted : Prop :=
  ∀ (t : Stamp) (s : State), s.running = true → s.adec.sync = .halted →
    exec (.crankEdge t s.toothEdge) s = .next
      { s with
        timebase := t
        adec := { s.adec.seeking (some t) 1 with stallRef := t }
        ports := syncPorts s.ports (syncRecord t s.adec.cycle .seek .edge s.adec.polarity) }

/-- R3, R9, R10, R12: a tooth edge in CRANK_SYNC and FULL_SYNC. It is rejected when four times the ticks since the last accepted edge is
less than the last tooth period: it counts in the tooth anomaly counter, which saturates, and changes nothing else. Otherwise it is
accepted. Below index N_pos − m − 1 a period that is no gap increments the index; at that index a gap is the gap end: index 0, T_rev the
ticks since the last gap end, and this one the last gap end. The tooth's cycle angle is the last one's plus one tooth angle, or m + 1 of
them over a gap. In CRANK_SYNC nothing else changes; in FULL_SYNC, with no cycle boundary, the layout events from the first angle not
yet passed up to the tooth's are raised. A TOOTH capture, which takes the period and the gap end, is left to R165. `nextAngle` is the
model's own bookkeeping (assumption log 4). -/
def Obligations.NoiseFilter : Prop :=
  (∀ (t e : Stamp) (s : State), s.running = true → (s.adec.sync = .crankSync ∨ s.adec.sync = .fullSync) →
    s.adec.lastEdge = some e → 4 * (t - e).toNat < s.adec.toothPeriod →
    exec (.crankEdge t s.toothEdge) s = .next
      { s with timebase := t, adec := { s.adec with anomalyTotal := min 65535 (s.adec.anomalyTotal + 1) } }) ∧
  (∀ (t : Stamp) (a : Adec) (s : State), s.running = true → KeepsCrankSync s t a → NoToothCapture s →
    (s.adec.sync = .crankSync →
      exec (.crankEdge t s.toothEdge) s = .next { s with timebase := t, adec := a }) ∧
    (s.adec.sync = .fullSync → s.adec.toothAngle ≤ a.toothAngle →
      exec (.crankEdge t s.toothEdge) s = .next
        ((s.cfg.active.eventsBetween s.adec.nextAngle a.toothAngle).foldl (State.raise t s.adec.cycle)
          { s with timebase := t, adec := { a with nextAngle := max s.adec.nextAngle (a.toothAngle + 1) } })))

/-- R4, R6: a tooth edge in SEEK. A period that is a gap puts the decoder into VERIFY with cause GAP_FOUND, and leaves the gap period
divided by m + 1 as the last tooth period. A period that is not a gap becomes the last tooth period and only counts, as long as fewer
than 3 × N_pos edges have come. An edge without an edge before it forms no period. -/
def Obligations.ToothEdgeInSeek : Prop :=
  ∀ (t : Stamp) (s : State), s.running = true → s.adec.sync = .seek →
    (∀ e : Stamp, s.adec.lastEdge = some e → GapPeriod s.cfg.active.missing s.adec.period (t - e).toNat →
      exec (.crankEdge t s.toothEdge) s = .next
        { s with
          timebase := t
          adec := { s.adec.afterPeriod t (t - e).toNat ((t - e).toNat / (s.cfg.active.missing + 1)) with
                    sync := .verify, seekCount := s.adec.seekCount + 1, verifyCount := 0, lastGapEnd := some t }
          ports := syncPorts s.ports (syncRecord t s.adec.cycle .verify .gapFound s.adec.polarity) }) ∧
    (∀ e : Stamp, s.adec.lastEdge = some e → ¬ GapPeriod s.cfg.active.missing s.adec.period (t - e).toNat →
      s.adec.seekCount + 1 < 3 * s.cfg.active.nPos →
      exec (.crankEdge t s.toothEdge) s = .next
        { s with
          timebase := t
          adec := { s.adec.afterPeriod t (t - e).toNat (t - e).toNat with seekCount := s.adec.seekCount + 1 } }) ∧
    (s.adec.lastEdge = none → s.adec.seekCount + 1 < 3 * s.cfg.active.nPos →
      exec (.crankEdge t s.toothEdge) s = .next
        { s with
          timebase := t
          adec := { s.adec with stallRef := t, lastEdge := some t, seekCount := s.adec.seekCount + 1 } })

/-- R7, R10, R2, R8: in VERIFY a gap as period number N_pos − m puts the decoder into CRANK_SYNC with cause VERIFIED: tooth index 0,
T_rev measured from the last gap end, the polarity in use copied into the last good polarity, and the consecutive verify failure count
cleared. The blocks other than the ports and the capture unit stay as they stand, and those two as well but for the SYNC record while
no capture is filling; a granted TOOTH capture that has not started starts at this gap end (R165). -/
def Obligations.VerifyReachesCrankSync : Prop :=
  ∀ (t e g : Stamp) (s : State), s.running = true → s.adec.sync = .verify → s.adec.lastEdge = some e →
    s.adec.lastGapEnd = some g → GapPeriod s.cfg.active.missing s.adec.period (t - e).toNat →
    s.adec.verifyCount + 1 + s.cfg.active.missing = s.cfg.active.nPos →
    ∃ u : State, exec (.crankEdge t s.toothEdge) s = .next u ∧
      u = { s with
            timebase := t
            adec := { s.adec.afterPeriod t (t - e).toNat ((t - e).toNat / (s.cfg.active.missing + 1)) with
                      sync := .crankSync, toothIndex := 0, trev := (t - g).toNat, lastGapEnd := some t,
                      lastGood := s.adec.polarity, verifyFails := 0 }
            ports := u.ports, cap := u.cap } ∧
      (s.cap.unit ≠ .filling →
        u.cap = s.cap ∧
        u.ports = syncPorts s.ports (syncRecord t s.adec.cycle .crankSync .verified s.adec.polarity)) ∧
      (∀ r : Request, s.cap.unit = .filling → s.cap.activeRequest = some r → r.kind = .tooth → s.cap.started = false →
        u.cap = { s.cap with started := true } ∧
        u.ports = syncPorts s.ports (syncRecord t s.adec.cycle .crankSync .verified s.adec.polarity))

/-- R7, R8, R6: a verify failure counts in both counts. In mode AUTO the failure that brings the consecutive count to 4 flips the
polarity and restarts SEEK with no edge and cause POLARITY_FLIP. Otherwise an early gap restarts VERIFY from that gap with no record, a
missing gap in VERIFY leads to SEEK with cause VERIFY_FAIL, and a failure in SEEK clears the edge count with no record.
That the tooth index is 0 in SEEK is DEDUCED (assumption log 15). -/
def Obligations.VerifyFailures : Prop :=
  ∀ (t e : Stamp) (s : State), s.running = true → s.adec.lastEdge = some e →
    let img := s.cfg.active
    let P := (t - e).toNat
    let gap := GapPeriod img.missing s.adec.period P
    let fails := min 255 (s.adec.verifyFails + 1)
    let counted : Adec → Adec := fun a =>
      { a with verifyFails := fails, verifyFailTotal := min 65535 (s.adec.verifyFailTotal + 1) }
    let flipped : Adec → Adec := fun a =>
      { (counted a).seeking none 0 with
        polarity := s.adec.polarity.other, verifyFails := 0, flipTotal := min 65535 (s.adec.flipTotal + 1) }
    let flips := img.polMode = 2 ∧ 4 ≤ fails
    -- an early gap in VERIFY
    (s.adec.sync = .verify → gap → s.adec.verifyCount + 1 + img.missing ≠ img.nPos →
      (¬ flips → exec (.crankEdge t s.toothEdge) s = .next
        { s with
          timebase := t
          adec := { counted (s.adec.afterPeriod t P (P / (img.missing + 1))) with
                    lastGapEnd := some t, verifyCount := 0 } }) ∧
      (flips → exec (.crankEdge t s.toothEdge) s = .next
        { s with
          timebase := t
          adec := { flipped (s.adec.afterPeriod t P (P / (img.missing + 1))) with lastGapEnd := some t }
          ports := syncPorts s.ports (syncRecord t s.adec.cycle .seek .polarityFlip s.adec.polarity.other) })) ∧
    -- no gap at period number N_pos − m in VERIFY
    (s.adec.sync = .verify → ¬ gap → s.adec.verifyCount + 1 + img.missing = img.nPos →
      (¬ flips → exec (.crankEdge t s.toothEdge) s = .next
        { s with
          timebase := t
          adec := (counted (s.adec.afterPeriod t P P)).seeking (some t) 1
          ports := syncPorts s.ports (syncRecord t s.adec.cycle .seek .verifyFail s.adec.polarity) }) ∧
      (flips → exec (.crankEdge t s.toothEdge) s = .next
        { s with
          timebase := t
          adec := flipped (s.adec.afterPeriod t P P)
          ports := syncPorts s.ports (syncRecord t s.adec.cycle .seek .polarityFlip s.adec.polarity.other) })) ∧
    -- any other period in VERIFY only counts
    (s.adec.sync = .verify → ¬ gap → s.adec.verifyCount + 1 + img.missing < img.nPos →
      exec (.crankEdge t s.toothEdge) s = .next
        { s with
          timebase := t
          adec := { s.adec.afterPeriod t P P with verifyCount := s.adec.verifyCount + 1 } }) ∧
    -- 3 × N_pos edges without a gap in SEEK
    (s.adec.sync = .seek → ¬ gap → 3 * img.nPos ≤ s.adec.seekCount + 1 →
      (¬ flips → exec (.crankEdge t s.toothEdge) s = .next
        { s with
          timebase := t
          adec := { counted (s.adec.afterPeriod t P P) with seekCount := 0 } }) ∧
      (flips → exec (.crankEdge t s.toothEdge) s = .next
        { s with
          timebase := t
          adec := flipped (s.adec.afterPeriod t P P)
          ports := syncPorts s.ports (syncRecord t s.adec.cycle .seek .polarityFlip s.adec.polarity.other) }))

/-- R9, R17, R20, R21: in CRANK_SYNC and FULL_SYNC an accepted edge whose period is a gap before index N_pos − m − 1, or is no gap at
that index, loses crank sync: SEEK with that edge as its first, the sync loss counter and the SYNC record with its cause. From FULL_SYNC
every block but the ports and the capture unit takes the effects of a sync loss and nothing else; from CRANK_SYNC those blocks stay. While
no capture uses the memory, the capture unit stays and the ports have the SYNC record and SYNC_CHANGE alone. A TOOTH capture takes the
edge's period first (R165); what the loss then ends is the loss events' own (R166). The SYNC record before such a capture's record is the
model's choice (assumption log 19), and the tooth index 0 in SEEK is DEDUCED (log 15). -/
def Obligations.CrankSyncLost : Prop :=
  ∀ (t e : Stamp) (s : State), s.running = true → (s.adec.sync = .crankSync ∨ s.adec.sync = .fullSync) →
    s.cfg.pendingCommit = none → s.adec.lastEdge = some e → s.adec.toothPeriod ≤ 4 * (t - e).toNat →
    let gap := GapPeriod s.cfg.active.missing s.adec.period (t - e).toNat
    let atGap := s.cfg.active.nPos ≤ s.adec.toothIndex + 1 + s.cfg.active.missing
    ((gap ∧ ¬ atGap) ∨ (¬ gap ∧ atGap)) →
    ∃ (u : State) (cause : SyncCause), exec (.crankEdge t s.toothEdge) s = .next u ∧
      (gap → cause = .gapMisplaced) ∧ (¬ gap → cause = .toothOverrun) ∧
      u = { s with
            timebase := t
            adec := { s.adec.seeking (some t) 1 with
                      stallRef := t, syncLossTotal := min 65535 (s.adec.syncLossTotal + 1) }
            smap := u.smap, igsu := u.igsu, mfa := u.mfa, kfe := u.kfe, cyt := u.cyt, ports := u.ports, cap := u.cap } ∧
      (s.adec.sync = .fullSync → LostSync s u ∧ u.mfa.counts = s.mfa.counts ∧ u.mfa.blockCycles = s.mfa.blockCycles) ∧
      (s.adec.sync = .crankSync →
        u.smap = s.smap ∧ u.igsu = s.igsu ∧ u.mfa = s.mfa ∧ u.kfe = s.kfe ∧ u.cyt = s.cyt) ∧
      (s.cap.unit = .free → u.cap = s.cap ∧
        u.ports = syncPorts s.ports (syncRecord t s.adec.cycle .seek cause s.adec.polarity)) ∧
      u = State.lossEvents
        { s with
          timebase := t
          adec := { s.adec.seeking (some t) 1 with
                    stallRef := t, syncLossTotal := min 65535 (s.adec.syncLossTotal + 1) }
          cap := (s.toothTaken t (t - e).toNat false).cap
          ports := syncPorts s.ports (syncRecord t s.adec.cycle .seek cause s.adec.polarity) } t s.adec.sync

/-- R11: rpm = 120,000,000 / T_rev, truncated, and 0 while T_rev is 0; the speed band is min(15, rpm / 600); overspeed holds while rpm
exceeds 10,000, that is for T_rev from 1 to 11,998. All three are functions of T_rev, which entering SEEK and HALTED clears. -/
def Obligations.SpeedRule : Prop :=
  (∀ a : Adec, a.trev = 0 → a.rpm = 0 ∧ a.band = 0 ∧ a.overspeed = false) ∧
  (∀ a : Adec, 0 < a.trev → a.rpm * a.trev ≤ 120000000 ∧ 120000000 < (a.rpm + 1) * a.trev) ∧
  (∀ a : Adec, a.band ≤ 15 ∧ (a.rpm < 9000 → 600 * a.band ≤ a.rpm ∧ a.rpm ≤ 600 * a.band + 599) ∧
    (9000 ≤ a.rpm → a.band = 15)) ∧
  (∀ a : Adec, a.overspeed = true ↔ 10000 < a.rpm) ∧
  (∀ a : Adec, a.overspeed = true ↔ 0 < a.trev ∧ a.trev ≤ 11998) ∧
  (∀ (a : Adec) (first : Option Stamp) (img : Image), (a.enterSeek first).trev = 0 ∧ (a.enterHalted img).trev = 0)

/-- R12, R13: the angle clock. With a last accepted edge and a last tooth period, the cycle angle is the last tooth's angle plus the
truncated travel since that edge, held below the next real tooth and at 11,519; it starts at the tooth's angle and never runs
backwards between teeth. The revolution angle likewise, held at 5,759, from (reference offset + j × tooth angle) modulo 5,760. -/
def Obligations.AngleClock : Prop :=
  ∀ (a : Adec) (img : Image) (e t u : Stamp), a.lastEdge = some e → 0 < a.toothPeriod → 0 < img.toothAngle →
    let step := if a.toothIndex + 1 + img.missing = img.nPos then (img.missing + 1) * img.toothAngle else img.toothAngle
    let gone := (t - e).toNat * img.toothAngle / a.toothPeriod
    let rev := (img.refOffset + a.toothIndex * img.toothAngle) % 5760
    (a.toothAngle + gone < a.toothAngle + step → a.toothAngle + gone ≤ 11519 →
      a.cycleAngle img t = a.toothAngle + gone) ∧
    a.cycleAngle img t ≤ 11519 ∧ a.cycleAngle img t < a.toothAngle + step ∧
    (step ≤ gone → a.toothAngle + step ≤ 11520 → a.cycleAngle img t = a.toothAngle + step - 1) ∧
    (a.toothAngle ≤ 11519 → a.cycleAngle img e = a.toothAngle) ∧
    ((t - e).toNat ≤ (u - e).toNat → a.cycleAngle img t ≤ a.cycleAngle img u) ∧
    (gone < step → rev + gone ≤ 5759 → a.revAngle img t = rev + gone) ∧
    a.revAngle img t ≤ 5759 ∧ a.revAngle img t < rev + step ∧ a.revAngle img e = rev ∧
    ((t - e).toNat ≤ (u - e).toNat → a.revAngle img t ≤ a.revAngle img u)

/-- R14, R31: a cam edge that counts in CRANK_SYNC. When the revolution angle, or that angle plus 5,760, lies in the cam window, the
decoder enters FULL_SYNC at that cycle angle: the last tooth takes the cycle angle that lies as far before it as the revolution angle
had gone, the fault count clears, the in-window mark is set, the cycle number stays, the cursor is positioned on the slot that
contains the angle and the marks clear; the entry latches FULL_SYNC in the waiting capture requests that name it (R160), behind the SYNC
record (the model's choice, assumption log 19). When neither lies in the window the edge is a cam fault and counts. `nextAngle` is the
model's own bookkeeping (log 4). -/
def Obligations.CamPhase : Prop :=
  ∀ (t : Stamp) (e : Edge) (s : State), s.running = true → s.adec.sync = .crankSync → CamCounts s.cfg.active e →
    s.cfg.active.camLo < 11520 → s.cfg.active.camHi < 11520 →
    let img := s.cfg.active
    let a := s.adec.revAngle img t
    let rev := (img.refOffset + s.adec.toothIndex * img.toothAngle) % 5760
    (∀ x : Nat, (x = a ∨ (x = a + 5760 ∧ ¬ InWindow img.camLo img.camHi a)) → InWindow img.camLo img.camHi x →
      ∃ (u : State) (y : Nat), exec (.camEdge t e) s = .next u ∧
        y < 11520 ∧ (y + (a + 5760 - rev) % 5760) % 11520 = x ∧
        u = { s with
              timebase := t
              adec := { s.adec with sync := .fullSync, toothAngle := y, nextAngle := x + 1, camFaults := 0, inWindow := true }
              smap := ⟨some (img.runStart + x / img.slotLen), .replicate 6 false⟩
              ports := u.ports, cap := u.cap } ∧
        (s.cap.requests = [] → u.cap = s.cap ∧
          u.ports = syncPorts s.ports (syncRecord t s.adec.cycle .fullSync .camPhase s.adec.polarity)) ∧
        u = State.noticeFullSync
          { u with
            ports := syncPorts s.ports (syncRecord t s.adec.cycle .fullSync .camPhase s.adec.polarity), cap := s.cap } t) ∧
    (¬ InWindow img.camLo img.camHi a → ¬ InWindow img.camLo img.camHi (a + 5760) →
      exec (.camEdge t e) s = .next
        { s with timebase := t, adec := { s.adec with camFaultTotal := min 65535 (s.adec.camFaultTotal + 1) } })

/-- R15: a cam edge that counts in FULL_SYNC. In the window it sets the in-window mark and clears the consecutive count. Outside it, with
BOTH it is ignored, and with RISING or FALLING it is a cam fault; the third in a row drops the decoder to CRANK_SYNC with cause
CAM_FAULT, keeping crank sync, tooth index and T_rev, and every block takes the sync loss, behind the SYNC record (the model's choice,
assumption log 19). -/
def Obligations.CamFaults : Prop :=
  ∀ (t : Stamp) (e : Edge) (s : State), s.running = true → s.adec.sync = .fullSync → CamCounts s.cfg.active e →
    s.cfg.active.camLo < 11520 → s.cfg.active.camHi < 11520 →
    let img := s.cfg.active
    let x := s.adec.cycleAngle img t
    let counted := { s.adec with camFaultTotal := min 65535 (s.adec.camFaultTotal + 1) }
    (InWindow img.camLo img.camHi x →
      exec (.camEdge t e) s = .next { s with timebase := t, adec := { s.adec with inWindow := true, camFaults := 0 } }) ∧
    (¬ InWindow img.camLo img.camHi x → img.camEdge = 2 → exec (.camEdge t e) s = .next { s with timebase := t }) ∧
    (¬ InWindow img.camLo img.camHi x → img.camEdge ≠ 2 → s.adec.camFaults < 2 →
      exec (.camEdge t e) s = .next
        { s with timebase := t, adec := { counted with camFaults := s.adec.camFaults + 1 } }) ∧
    (¬ InWindow img.camLo img.camHi x → img.camEdge ≠ 2 → 2 ≤ s.adec.camFaults → s.cfg.pendingCommit = none →
      ∃ u : State, exec (.camEdge t e) s = .next u ∧
        u = { s with
              timebase := t
              adec := { counted with sync := .crankSync, camFaults := 0, inWindow := false }
              smap := u.smap, igsu := u.igsu, mfa := u.mfa, kfe := u.kfe, cyt := u.cyt, ports := u.ports, cap := u.cap } ∧
        LostSync s u ∧ u.mfa.counts = s.mfa.counts ∧ u.mfa.blockCycles = s.mfa.blockCycles ∧
        (s.cap.unit = .free → u.cap = s.cap ∧
          u.ports = syncPorts s.ports (syncRecord t s.adec.cycle .crankSync .camFault s.adec.polarity)) ∧
        u = State.lossEvents
          { s with
            timebase := t
            adec := { counted with sync := .crankSync, camFaults := 0, inWindow := false }
            ports := syncPorts s.ports (syncRecord t s.adec.cycle .crankSync .camFault s.adec.polarity) } t .fullSync)

/-- R18, R21, R78, R79: when the ticks since the stall reference reach the stall timeout × 2,000 outside HALTED, the decoder enters HALTED
with cause STALL: periods, tooth index, T_rev and both consecutive counts clear, and in mode AUTO the polarity in use becomes the last
good one. The misfire block and the roughness history clear, and from FULL_SYNC the blocks that act on it take the sync loss; of the
capture unit this says that it stays while it is free, and what the loss events end otherwise is their own (R166). A STALL commanded
before its time, or in HALTED, only lets time pass (DEDUCED, assumption log 14). That HALTED holds no last edge is DEDUCED (log 15), and
the SYNC record before the record of a capture that the loss ends is the model's choice (log 19). -/
def Obligations.StallHalts : Prop :=
  ∀ (t : Stamp) (s : State), s.running = true →
    (s.adec.sync ≠ .halted → s.cfg.active.stallMs * 2000 ≤ (t - s.adec.stallRef).toNat → s.cfg.pendingCommit = none →
      ∃ u : State, exec (.stall t) s = .next u ∧
        u = { s with
              timebase := t
              adec := { s.adec with
                        sync := .halted, period := 0, prevPeriod := 0, toothPeriod := 0, trev := 0, toothIndex := 0,
                        lastEdge := none, verifyFails := 0, camFaults := 0, inWindow := false,
                        polarity := if s.cfg.active.polMode = 2 then s.adec.lastGood else s.adec.polarity }
              smap := u.smap, igsu := u.igsu, mfa := u.mfa, kfe := u.kfe, cyt := u.cyt, ports := u.ports, cap := u.cap } ∧
        u.mfa.history = [] ∧ u.mfa.blockCycles = 0 ∧
        (∀ c : Cyl, u.mfa.counts.get c = { s.mfa.counts.get c with block := 0 }) ∧
        (s.adec.sync = .fullSync → LostSync s u) ∧
        (s.adec.sync ≠ .fullSync → u.smap = s.smap ∧ u.igsu = s.igsu ∧ u.kfe = s.kfe ∧ u.cyt = s.cyt ∧
          u.mfa.segments = s.mfa.segments ∧ u.mfa.last = s.mfa.last) ∧
        (s.cap.unit = .free → u.cap = s.cap ∧
          u.ports = syncPorts s.ports (syncRecord t s.adec.cycle .halted .stall u.adec.polarity)) ∧
        u = State.lossEvents
          { s with timebase := t, adec := u.adec
                   ports := syncPorts s.ports (syncRecord t s.adec.cycle .halted .stall u.adec.polarity) } t s.adec.sync) ∧
    (s.adec.sync ≠ .halted → (t - s.adec.stallRef).toNat < s.cfg.active.stallMs * 2000 →
      exec (.stall t) s = .next { s with timebase := t }) ∧
    (s.adec.sync = .halted → exec (.stall t) s = .next { s with timebase := t })

/-- R15, R16, R17, R9, R10, R12, R52, R75: in FULL_SYNC an accepted tooth whose cycle angle is lower than that of the tooth before it is
the cycle boundary. With the in-window mark set and no commit pending, the cycle number increments modulo 65,536, the mark clears for
the new cycle, the decoder stays in FULL_SYNC, index, T_rev and last gap end go on as at any tooth, and the threshold set is evaluated
anew; the images and the operating state's other parts stay. Whole: a TOOTH capture takes the edge's period and gap end first (R165), a
clear mark is a cam fault, the block counts the cycle and ends with its RATE records, and then the layout events left of the old cycle
are raised with its number and those of the new cycle up to the tooth's angle with the new number. A third cam fault in a row drops the
decoder to CRANK_SYNC and raises no boundary. `nextAngle`, and the old cycle's events before the new cycle's, are the model's (assumption
log 4), and so is the SYNC record of the drop before the record of a capture it ends (log 19). -/
def Obligations.CycleBoundary : Prop :=
  (∀ (t e : Stamp) (s : State), s.running = true → s.adec.sync = .fullSync → s.cfg.pendingCommit = none →
    s.adec.lastEdge = some e → s.adec.toothPeriod ≤ 4 * (t - e).toNat → s.adec.inWindow = true →
    let img := s.cfg.active
    let gap := GapPeriod img.missing s.adec.period (t - e).toNat
    let atGap := img.nPos ≤ s.adec.toothIndex + 1 + img.missing
    ∀ step : Nat, ((gap ∧ atGap ∧ step = (img.missing + 1) * img.toothAngle) ∨ (¬ gap ∧ ¬ atGap ∧ step = img.toothAngle)) →
    (s.adec.toothAngle + step) % 11520 < s.adec.toothAngle →
    ∃ u : State, exec (.crankEdge t s.toothEdge) s = .next u ∧
      u.adec.sync = .fullSync ∧ u.adec.cycle = s.adec.cycle + 1 ∧ u.adec.inWindow = false ∧
      u.adec.camFaults = s.adec.camFaults ∧ u.adec.toothAngle = (s.adec.toothAngle + step) % 11520 ∧
      u.adec.lastEdge = some t ∧ u.adec.period = (t - e).toNat ∧ u.adec.syncLossTotal = s.adec.syncLossTotal ∧
      u.adec.camFaultTotal = s.adec.camFaultTotal ∧ u.cfg = s.cfg ∧
      (¬ gap → u.adec.toothIndex = s.adec.toothIndex + 1 ∧ u.adec.trev = s.adec.trev ∧ u.adec.lastGapEnd = s.adec.lastGapEnd) ∧
      (gap → u.adec.toothIndex = 0 ∧ u.adec.lastGapEnd = some t ∧
        ∀ g : Stamp, s.adec.lastGapEnd = some g → u.adec.trev = (t - g).toNat) ∧
      u.ops = { s.ops with set := u.ops.set, tail := u.ops.tail } ∧
      (s.ops.antiLag = true → u.ops.set = .setB ∧ u.ops.tail = 0) ∧
      (s.ops.antiLag = false → s.ops.set = .setB → s.ops.tail + 1 < img.tailCycles →
        u.ops.set = .setB ∧ u.ops.tail = s.ops.tail + 1) ∧
      (s.ops.antiLag = false → s.ops.set = .setB → img.tailCycles ≤ s.ops.tail + 1 → u.ops.set = .setA ∧ u.ops.tail = 0) ∧
      (s.ops.antiLag = false → s.ops.set = .setA → u.ops.set = .setA ∧ u.ops.tail = s.ops.tail)) ∧
  (∀ (t : Stamp) (a : Adec) (s : State), s.running = true → s.adec.sync = .fullSync → s.cfg.pendingCommit = none →
    KeepsCrankSync s t a → a.toothAngle < s.adec.toothAngle →
    let img := s.cfg.active
    let w := s.edgeTaken t a
    (s.adec.inWindow = true ∨ s.adec.camFaults < 2 →
      let v := afterBoundary w t a
      exec (.crankEdge t s.toothEdge) s = .next
        ((img.eventsBetween 0 a.toothAngle).foldl (State.raise t (s.adec.cycle + 1))
          ((img.eventsBetween s.adec.nextAngle 11519).foldl (State.raise t s.adec.cycle)
            { v with adec := { v.adec with nextAngle := a.toothAngle + 1 } }))) ∧
    (s.adec.inWindow = false → 2 ≤ s.adec.camFaults →
      ∃ u : State, exec (.crankEdge t s.toothEdge) s = .next u ∧
        u = { s with
              timebase := t, adec := a.dropped
              smap := u.smap, igsu := u.igsu, mfa := u.mfa, kfe := u.kfe, cyt := u.cyt, ports := u.ports, cap := u.cap } ∧
        LostSync s u ∧ u.mfa.counts = s.mfa.counts ∧ u.mfa.blockCycles = s.mfa.blockCycles ∧
        (s.cap.unit = .free → u.cap = s.cap ∧
          u.ports = syncPorts s.ports (syncRecord t s.adec.cycle .crankSync .camFault s.adec.polarity)) ∧
        u = State.lossEvents
          { w with
            adec := a.dropped
            ports := syncPorts w.ports (syncRecord t s.adec.cycle .crankSync .camFault s.adec.polarity) } t .fullSync))

/-- R17, R32, R33, R41, R54, R87, R90, R91, R132: ANGLE_REACHED. In FULL_SYNC the layout events from the first angle not yet passed to
the interpolated angle are raised in their order, each in the state that the one before it leaves; outside FULL_SYNC, or with no event
due, only time and the passed angle move. At the slot boundary of slot i the cursor advances to the next row of the run list, from row
e to row s, and while the slot's mark is set the operating snapshot goes into the instance's pending entry. A spark window opening sets
the slot's mark, opens the cylinder's record and appends the instance to the pending list. While the mark is clear no other window
event of the slot acts. With it set, a knock window opening sets the stage gain and opens the knock integrator, voiding an open guard
integrator of another gain when the stage gain changes; a guard window opening sets the stage gain unless a knock window is open, and
opens the guard integrator with the stage gain. Nothing else changes, while no KNOCK_RAW capture records. The passed angle and the
order of one slot's events at one angle are the model's (assumption log 4); an ANGLE_REACHED with nothing due only lets time pass
(DEDUCED, log 14). -/
def Obligations.AngleReached : Prop :=
  (∀ (t : Stamp) (s : State), s.running = true →
    let img := s.cfg.active
    let x := s.adec.cycleAngle img t
    (s.adec.sync ≠ .fullSync → exec (.angleReached t) s = .next { s with timebase := t }) ∧
    (s.adec.sync = .fullSync → x < s.adec.nextAngle → exec (.angleReached t) s = .next { s with timebase := t }) ∧
    (s.adec.sync = .fullSync → s.adec.nextAngle ≤ x → img.eventsBetween s.adec.nextAngle x = [] →
      exec (.angleReached t) s = .next { s with timebase := t, adec := { s.adec with nextAngle := x + 1 } }) ∧
    (s.adec.sync = .fullSync → s.adec.nextAngle ≤ x →
      exec (.angleReached t) s = .next
        ((img.eventsBetween s.adec.nextAngle x).foldl (State.raise t s.adec.cycle)
          { s with timebase := t, adec := { s.adec with nextAngle := x + 1 } })) ∧
    (∀ (z : Int) (i r : Nat), s.adec.sync = .fullSync → s.adec.nextAngle ≤ x →
      img.eventsBetween s.adec.nextAngle x = [⟨z, .slotBoundary, i⟩] → 0 ≤ z → z < 11520 → s.smap.cursor = some r →
      ∃ u : State, exec (.angleReached t) s = .next u ∧
        u = { s with
              timebase := t
              adec := { s.adec with nextAngle := x + 1 }
              smap := { s.smap with cursor := some (if r = img.runEnd then img.runStart else r + 1) }
              cyt := u.cyt } ∧
        (vget false s.smap.marks i = false → u.cyt = s.cyt) ∧
        (vget false s.smap.marks i = true →
          u.cyt.entry = s.cyt.entry ∧
          u.cyt.pendingList = s.cyt.pendingList.map fun y =>
            if y.slot = i ∧ y.cycle = s.adec.cycle then
              { y with snapshot := some ⟨s.ops.set, s.ops.band, s.ops.stale,
                         s.ops.fuelCut.getLsbD (cylNumber (img.row (img.runStart + i)).cyl - 1)⟩ }
            else y))) ∧
  (∀ (t : Stamp) (c : Half) (s : State) (z : Int) (i : Nat),
    let img := s.cfg.active
    let row := img.runStart + i
    let r := img.row row
    let cycle := (⟨z, .slotBoundary, i⟩ : LayoutEvent).instCycle c
    let g := (s.kfe.rowGain row).gain
    let chain := s.kfe.chain.get r.sensor
    let left : SensorChain → State := fun y => { s with kfe := { s.kfe with chain := s.kfe.chain.set r.sensor y } }
    -- a spark window opening
    (State.raise t c s ⟨z, .sparkOpen, i⟩ =
      { s with
        smap := { s.smap with marks := vset s.smap.marks i true }
        igsu := s.igsu.set r.cyl (some ⟨i, cycle, i * (11520 / img.slots), none⟩)
        cyt := { s.cyt with
                 pendingList := s.cyt.pendingList ++
                   [⟨i, cycle, row, r.cyl, r.sensor, none, none, none, if r.guardLen = 0 then .notConfigured else .empty,
                     none, none⟩] } }) ∧
    -- a slot that is not tracked
    (vget false s.smap.marks i = false →
      ∀ k : EventKind, k = .sparkClose ∨ k = .knockOpen ∨ k = .knockClose ∨ k = .guardOpen ∨ k = .guardClose →
        State.raise t c s ⟨z, k, i⟩ = s) ∧
    -- a knock window opening
    (vget false s.smap.marks i = true → NoRawCapture s →
      State.raise t c s ⟨z, .knockOpen, i⟩ = left
        { chain with
          stage := g
          knock := some ⟨i, cycle, row, r.cyl, g, 0, 0, false⟩
          guard := chain.guard.map fun q => if g ≠ chain.stage ∧ g ≠ q.gain then { q with void := true } else q }) ∧
    -- a guard window opening
    (vget false s.smap.marks i = true →
      let stage := if chain.knock.isSome then chain.stage else g
      State.raise t c s ⟨z, .guardOpen, i⟩ = left
        { chain with stage := stage, guard := some ⟨i, cycle, row, r.cyl, stage, 0, 0, false⟩ }))

/-- R26, R27, R28, R29, R58: the cycle layout. Slot i has its TDC at i × L, L = 11,520 / n; its spark window from TDC − 1,440 to
TDC + 720, its knock window and, unless its length is 0, its guard window from the starts and lengths of its row; its slot boundary at
TDC; and its segment boundary at the tooth position at or before TDC + segment offset. An event is raised at its angle modulo 11,520,
with the number of the cycle of its slot's TDC. The events raised between two cycle angles are exactly the layout events whose cycle
angles lie there, in order of angle; at one angle window closes come first, then segment boundaries, then the slot boundary, then
window opens; and among several of one kind the lower slot comes first. -/
def Obligations.LayoutOrder : Prop :=
  (∀ (img : Image) (e : LayoutEvent),
    e ∈ img.layoutEvents ↔ ∃ i : Nat, i < img.slots ∧
      let r := img.row (img.runStart + i)
      let z : Int := i * (11520 / img.slots)
      (e = ⟨z - 1440, .sparkOpen, i⟩ ∨ e = ⟨z + 720, .sparkClose, i⟩ ∨
        e = ⟨z + r.knockStart, .knockOpen, i⟩ ∨ e = ⟨z + r.knockStart + r.knockLen, .knockClose, i⟩ ∨
        (r.guardLen ≠ 0 ∧ (e = ⟨z + r.guardStart, .guardOpen, i⟩ ∨ e = ⟨z + r.guardStart + r.guardLen, .guardClose, i⟩)) ∨
        e = ⟨z, .slotBoundary, i⟩ ∨ e = ⟨img.boundary i, .segment, i⟩)) ∧
  (∀ (img : Image) (i : Nat), 0 < img.toothAngle →
    let x : Int := i * (11520 / img.slots) + img.segOffset
    img.boundary i ≤ x ∧ x < img.boundary i + img.toothAngle ∧
      (img.boundary i - img.refOffset) % (img.toothAngle : Int) = 0) ∧
  (∀ (e : LayoutEvent) (c : Half),
    (e.cycleAngle : Int) = e.angle % 11520 ∧ e.cycleAngle < 11520 ∧
    (e.angle < 0 → e.instCycle c = c + 1) ∧
    (0 ≤ e.angle → e.angle < 11520 → e.instCycle c = c) ∧
    (11520 ≤ e.angle → e.instCycle c = c - 1)) ∧
  (∀ (img : Image) (lo hi : Nat) (e : LayoutEvent),
    e ∈ img.eventsBetween lo hi ↔ e ∈ img.layoutEvents ∧ lo ≤ e.cycleAngle ∧ e.cycleAngle ≤ hi) ∧
  (∀ (img : Image) (lo hi : Nat), (img.eventsBetween lo hi).length =
    (img.layoutEvents.filter fun e => decide (lo ≤ e.cycleAngle ∧ e.cycleAngle ≤ hi)).length) ∧
  (∀ (img : Image) (lo hi : Nat), img.slots ≤ 6 →
    (img.eventsBetween lo hi).Pairwise fun e f =>
      e.cycleAngle < f.cycleAngle ∨ (e.cycleAngle = f.cycleAngle ∧
        (e.kind.rank < f.kind.rank ∨ (e.kind.rank = f.kind.rank ∧ e.slot ≤ f.slot)))) ∧
  (EventKind.rank .sparkClose = 0 ∧ EventKind.rank .knockClose = 0 ∧ EventKind.rank .guardClose = 0 ∧
    EventKind.rank .segment = 1 ∧ EventKind.rank .slotBoundary = 2 ∧
    EventKind.rank .sparkOpen = 3 ∧ EventKind.rank .knockOpen = 3 ∧ EventKind.rank .guardOpen = 3)

/-! ### Ignition sense and operating state -/

/-- R42, R43, R44: a falling edge on IGSn while cylinder n's record is open without a spark angle keeps the angle relative to the slot's
TDC, ((x − TDC + 1,440) modulo 11,520) − 1,440; with the record closed or an angle kept already it changes nothing. At the close the
spark part carries the angle of an enabled line, and the cut reason is SPARK for a missing spark, otherwise FUEL under the fuel-cut
mark. The close of a tracked slot's spark window closes the cylinder's record and writes that spark part into the entry of the record's
instance, which is then handed to KNA if it is ready (R107). Bit 0 of the enable mask as cylinder 1 is DEDUCED (assumption log 20). -/
def Obligations.SparkSense : Prop :=
  (∀ (t : Stamp) (n : Cyl) (s : State) (r : SparkRecord), s.running = true → s.igsu.get n = some r → r.angle = none →
    let x : Int := s.adec.cycleAngle s.cfg.active t
    exec (.igsEdge t n .falling) s = .next
      { s with timebase := t, igsu := s.igsu.set n (some { r with angle := some ((x - r.tdc + 1440) % 11520 - 1440) }) }) ∧
  (∀ (t : Stamp) (n : Cyl) (s : State), s.running = true →
    (s.igsu.get n = none ∨ ∃ (r : SparkRecord) (y : Int), s.igsu.get n = some r ∧ r.angle = some y) →
    exec (.igsEdge t n .falling) s = .next { s with timebase := t }) ∧
  (∀ (x : Int), sparkPartOf true false (some x) = ⟨some x, none⟩ ∧ sparkPartOf true true (some x) = ⟨some x, some .fuel⟩) ∧
  (∀ fuelCut : Bool, sparkPartOf true fuelCut none = ⟨none, some .spark⟩) ∧
  (∀ angle : Option Int, sparkPartOf false false angle = ⟨none, none⟩ ∧ sparkPartOf false true angle = ⟨none, some .fuel⟩) ∧
  (∀ (t : Stamp) (c : Half) (s : State) (z : Int) (i : Nat), vget false s.smap.marks i = true →
    let img := s.cfg.active
    let n := (img.row (img.runStart + i)).cyl
    (s.igsu.get n = none → State.raise t c s ⟨z, .sparkClose, i⟩ = s) ∧
    (∀ r : SparkRecord, s.igsu.get n = some r →
      let named : SlotInst → Bool := fun y => decide (y.slot = r.slot) && decide (y.cycle = r.cycle)
      ∃ fuelCut : Bool,
        (∀ (x : SlotInst) (m : Snapshot), s.cyt.pendingList.find? named = some x → x.snapshot = some m → fuelCut = m.fuelCut) ∧
        State.raise t c s ⟨z, .sparkClose, i⟩ =
          State.tryKnock
            { s with
              igsu := s.igsu.set n none
              cyt := { s.cyt with
                       pendingList := s.cyt.pendingList.map fun y =>
                         if named y then
                           { y with spark := some (sparkPartOf (img.igsMask.testBit (cylNumber n - 1)) fuelCut r.angle) }
                         else y } }
            t r.slot r.cycle))

/-- R49, R50, R51: an edge on ALSIN updates the held level and forms the merged operating state anew. Effective anti-lag holds when the
line is enabled and at its active level or a held declaration flags it; a cylinder is in the effective fuel-cut mask when a held
declaration names it; the load band is that of the first of ports A, B and C with a declaration, and without any it keeps its value and
STALE is set. Nothing else changes. -/
def Obligations.MergedState : Prop :=
  ∀ (t : Stamp) (e : Edge) (s : State), s.running = true →
    let img := s.cfg.active
    let D := s.ops.decl
    ∃ u : State, exec (.alsinEdge t e) s = .next u ∧
      u = { s with
            timebase := t
            ops := { s.ops with alsin := decide (e = .rising), antiLag := u.ops.antiLag, fuelCut := u.ops.fuelCut,
                                band := u.ops.band, stale := u.ops.stale } } ∧
      (u.ops.antiLag = true ↔
        (img.alsinEnable = 1 ∧ (e = .rising ↔ img.alsinActive = 1)) ∨ ∃ (p : Port) (d : Declaration), D.get p = some d ∧ d.antiLag = true) ∧
      (∀ c : Cyl, u.ops.fuelCut.getLsbD (cylNumber c - 1) = true ↔
        ∃ (p : Port) (d : Declaration), D.get p = some d ∧ d.mask.getLsbD (cylNumber c - 1) = true) ∧
      (∀ d : Declaration, D.a = some d → u.ops.band = d.band ∧ u.ops.stale = false) ∧
      (∀ d : Declaration, D.a = none → D.b = some d → u.ops.band = d.band ∧ u.ops.stale = false) ∧
      (∀ d : Declaration, D.a = none → D.b = none → D.c = some d → u.ops.band = d.band ∧ u.ops.stale = false) ∧
      (D.a = none → D.b = none → D.c = none → u.ops.band = s.ops.band ∧ u.ops.stale = true)

/-- R46: an accepted DECLARE_STATE fills the port's declaration slot, the load band held to 3, with the stamp of the taking and the
active declaration expiry; the merged state is formed anew and answered. A flags byte above 1 or a mask byte above 63 is answered
BAD_VALUE. Nothing else changes. -/
def Obligations.DeclareState : Prop :=
  ∀ (t : Stamp) (p : Port) (f b m : Byte) (s : State), s.ready p →
    (f.toNat ≤ 1 → m.toNat ≤ 63 →
      ∃ o : Ops, o = Ops.merge
          { s.ops with decl := s.ops.decl.set p (some ⟨decide (f = 1), min 3 b.toNat, BitVec.ofNat 6 m.toNat, t,
                                                     s.cfg.active.declMs * 2000⟩) } s.cfg.active ∧
        exec (.declareState t p [f, b, m]) s = .next
          { s.answered p t ⟨.ok, [BitVec.ofNat 8 o.antiLag.toNat, BitVec.ofNat 8 o.fuelCut.toNat, BitVec.ofNat 8 o.band,
                                 BitVec.ofNat 8 o.stale.toNat, BitVec.ofNat 8 o.set.code]⟩ with ops := o }) ∧
    (1 < f.toNat ∨ 63 < m.toNat →
      exec (.declareState t p [f, b, m]) s = .next (s.answered p t ⟨.badValue, []⟩))

/-- R47: when the ticks since a declaration's start reach its duration it lapses: the slot empties, DECL_EXPIRED is set on that port
alone, and the merged state is formed anew. A DECL_EXPIRY commanded before that, or with an empty slot, only lets time pass (DEDUCED,
assumption log 14). -/
def Obligations.DeclarationLapse : Prop :=
  ∀ (t : Stamp) (p : Port) (s : State), s.running = true →
    (s.ops.decl.get p = none → exec (.declExpiry t p) s = .next { s with timebase := t }) ∧
    (∀ d : Declaration, s.ops.decl.get p = some d → (t - d.start).toNat < d.duration →
      exec (.declExpiry t p) s = .next { s with timebase := t }) ∧
    (∀ d : Declaration, s.ops.decl.get p = some d → d.duration ≤ (t - d.start).toNat →
      exec (.declExpiry t p) s = .next
        { s with
          timebase := t
          ops := Ops.merge { s.ops with decl := s.ops.decl.set p none } s.cfg.active
          ports := s.ports.set p { s.ports.get p with alerts := (s.ports.get p).alerts ||| 16#5 } })

/-! ### Misfire -/

/-- R64 to R71: the misfire verdict of an instance, the first test that applies: a segment time missing, rpm below the minimum,
overspeed, a cut reason, both neighbours CUT; otherwise D = trunc(2E × 32,768 / T_k) held to ±32,767, with 2E by the neighbours' cut
states, W from a full history without its largest value, the effective limit min(32,767, base + trunc(W × Kr / 16)), the base from the
set's table at the speed band and load band, under STALE the largest of the row; ROUGH above the ceiling, otherwise MISFIRE when D
exceeds the limit, otherwise NONE. -/
def Obligations.MisfireVerdicts : Prop :=
  ∀ (img : Image) (x : MisfireInputs),
    (x.tPrev = none ∨ x.tk = none ∨ x.tNext = none → judgeMisfire img x = ⟨.notAssessed, some .warmup, none⟩) ∧
    ∀ a k b : Nat, x.tPrev = some a → x.tk = some k → x.tNext = some b →
      (x.rpm < img.minSpeed → judgeMisfire img x = ⟨.notAssessed, some .lowSpeed, none⟩) ∧
      (img.minSpeed ≤ x.rpm → 10000 < x.rpm → judgeMisfire img x = ⟨.notAssessed, some .overspeed, none⟩) ∧
      (img.minSpeed ≤ x.rpm → x.rpm ≤ 10000 →
        (x.cut = some .spark → judgeMisfire img x = ⟨.cut, some .spark, none⟩) ∧
        (x.cut = some .fuel → judgeMisfire img x = ⟨.cut, some .fuel, none⟩) ∧
        (x.cut = none → x.cutPrev = true → x.cutNext = true → judgeMisfire img x = ⟨.neighborCut, none, none⟩) ∧
        (∀ e2 : Int, x.cut = none →
          ((x.cutPrev = false ∧ x.cutNext = false ∧ e2 = 2 * (k : Int) - a - b) ∨
           (x.cutPrev = true ∧ x.cutNext = false ∧ e2 = 2 * (k : Int) - 2 * b) ∨
           (x.cutPrev = false ∧ x.cutNext = true ∧ e2 = 2 * (k : Int) - 2 * a)) →
          ∃ (d : Int) (base w : Nat),
            let limit := min 32767 (base + w * img.roughGain / 16)
            judgeMisfire img x = ⟨if img.roughCeiling < w then .rough else if (limit : Int) < d then .misfire else .noMisfire,
              none, some ⟨d, limit, w⟩⟩ ∧
            -32767 ≤ d ∧ d ≤ 32767 ∧
            (-32767 ≤ Int.tdiv (e2 * 32768) k → Int.tdiv (e2 * 32768) k ≤ 32767 → d = Int.tdiv (e2 * 32768) k) ∧
            (32767 < Int.tdiv (e2 * 32768) k → d = 32767) ∧ (Int.tdiv (e2 * 32768) k < -32767 → d = -32767) ∧
            (x.history.length < 8 → w = 0) ∧
            (x.history.length = 8 → ∃ m ∈ x.history, (∀ v ∈ x.history, v ≤ m) ∧ w = (x.history.sum - m) / 7) ∧
            (let table := img.misfireTable x.snap.set
             (x.snap.stale = false → x.snap.band < 4 → base = vget 0 table (4 * x.band + x.snap.band)) ∧
             (x.snap.stale = true →
               (∀ l, l < 4 → vget 0 table (4 * x.band + l) ≤ base) ∧
               ∃ l, l < 4 ∧ base = vget 0 table (4 * x.band + l)))))

/-- R72 to R75, R77, R133: what MFA does on a verdict for an instance. A MISFIRE raises the cylinder's consecutive and block counts,
saturating, and emits a MISFIRE record and then, when the consecutive count has reached the limit with the persist mark clear, a PERSIST
record; NONE clears count and mark; the other verdicts leave them. |D| enters the history when it was computed, the oldest of nine
leaving. The last decided record names the instance. The misfire part with the new counts goes into the pending entry, and the completion
test follows, which completes the instance when its knock part is there. Nothing else changes. R60 to R63: a segment boundary of slot j
closes the open segment with its time, decides the instance two slots before, when it stands in the list without a misfire part, from the
inputs as they stand, and opens the new segment, keeping three closed ones. The inputs are ADEC's speed, the instance's snapshot and cut
reason, the times of its own and the neighbouring segments, the cut mark of the last decided record when that names the instance before,
and the cut reason of the instance after. -/
def Obligations.MisfireDecision : Prop :=
  (∀ (t : Stamp) (s : State) (i : SlotInst) (j : MisfireJudged), (j.verdict = .misfire → j.index.isSome) →
    let c := s.mfa.counts.get i.cyl
    let limit := s.cfg.active.consLimit
    let cons := min 255 (c.cons + 1)
    let persists := decide (j.verdict = .misfire) && !c.persist && decide (limit ≤ cons)
    let counts : MisfireCounts :=
      if j.verdict = .misfire then ⟨cons, c.persist || decide (limit ≤ cons), min 1000 (c.block + 1)⟩
      else if j.verdict = .noMisfire then ⟨0, false, c.block⟩ else c
    let history := match j.index with
      | none => s.mfa.history
      | some x => (if s.mfa.history.length < 8 then s.mfa.history else s.mfa.history.tail) ++ [x.d.natAbs]
    let rec1 : MisfireIndex → Record := fun x =>
      ⟨some i.cyl, i.cycle, t, .misfire x.d x.limit cons i.snap.set i.snap.stale⟩
    let rec2 : Record := ⟨some i.cyl, i.cycle, t, .persist cons limit⟩
    ∃ ports : PerPort PortState,
      (j.verdict ≠ .misfire → ports = s.ports) ∧
      (∀ x : MisfireIndex, j.verdict = .misfire → j.index = some x →
        (persists = false → ports = s.ports.map (offered (rec1 x))) ∧
        (persists = true → ports = s.ports.map fun q => offered rec2 (offered (rec1 x) q))) ∧
      s.applyMisfire t i j = State.tryComplete
        { s with
          mfa := { s.mfa with counts := s.mfa.counts.set i.cyl counts, history := history,
                              last := some ⟨i.slot, i.cycle, (i.spark.bind (·.cut)).isSome⟩ }
          cyt := { s.cyt with
                   pendingList := s.cyt.pendingList.map fun y =>
                     if y.slot = i.slot ∧ y.cycle = i.cycle then { y with misfire := some ⟨j, counts.cons, counts.block⟩ }
                     else y }
          ports := ports }
        t i.slot i.cycle) ∧
  (∀ (t : Stamp) (c : Half) (s : State) (z : Int) (j : Nat),
    let n := s.cfg.active.slots
    let cycle := (⟨z, .segment, j⟩ : LayoutEvent).instCycle c
    let name : Nat × Half := if 2 ≤ j then (j - 2, cycle) else (n + j - 2, cycle - 1)
    let closed := s.mfa.segments.map fun g => if g.time = none then { g with time := some (t - g.start).toNat } else g
    let opened := (if 3 < (closed.filter fun g => g.time.isSome).length then closed.tail else closed) ++ [⟨j, cycle, t, none⟩]
    let v : State := { s with mfa := { s.mfa with segments := closed } }
    let found := s.cyt.pendingList.find? fun y => decide (y.slot = name.1) && decide (y.cycle = name.2)
    ((found = none ∨ ∃ i : SlotInst, found = some i ∧ i.misfire.isSome = true) →
      State.raise t c s ⟨z, .segment, j⟩ = { s with mfa := { s.mfa with segments := opened } }) ∧
    (∀ i : SlotInst, found = some i → i.misfire = none →
      ∃ u : State, u = v.applyMisfire t i (judgeMisfire s.cfg.active (v.misfireInputs i)) ∧
        State.raise t c s ⟨z, .segment, j⟩ = { u with mfa := { u.mfa with segments := opened } })) ∧
  (∀ (s : State) (i : SlotInst),
    let n := s.cfg.active.slots
    let before : Nat × Half := if i.slot = 0 then (n - 1, i.cycle - 1) else (i.slot - 1, i.cycle)
    let after : Nat × Half := if i.slot + 1 = n then (0, i.cycle + 1) else (i.slot + 1, i.cycle)
    let time : Nat × Half → Option Nat := fun name =>
      (s.mfa.segments.find? fun g => decide (g.slot = name.1) && decide (g.cycle = name.2) && g.time.isSome).bind (·.time)
    let x := s.misfireInputs i
    x.rpm = s.adec.rpm ∧ x.band = s.adec.band ∧ x.history = s.mfa.history ∧ x.cut = i.spark.bind (·.cut) ∧
      (∀ m : Snapshot, i.snapshot = some m → x.snap = m) ∧
      x.tPrev = time before ∧ x.tk = time (i.slot, i.cycle) ∧ x.tNext = time after ∧
      (x.cutPrev = true ↔ s.mfa.last = some ⟨before.1, before.2, true⟩) ∧
      (x.cutNext = true ↔ ∃ (y : SlotInst) (p : SparkPart), p.cut.isSome = true ∧ y.spark = some p ∧
        s.cyt.pendingList.find? (fun y => decide (y.slot = after.1) && decide (y.cycle = after.2)) = some y))

/-! ### Knock -/

/-- R86, R92: at a sample instant, a whole number of 20-tick spacings after the last, each converter's raw sample passes through its
band filter, and each open integrator of the sensor counts the sample and adds |y|; the knock integrator's clip mark is set by a raw
sample at a limit. The filter's output y and its next running state are free values (assumption log 5). While no window
is recorded by a capture, nothing else changes. That sample instants may be skipped, and that at a stamp off the 20-tick grid only time passes, is DEDUCED
(assumption log 14). -/
def Obligations.KnockSample : Prop :=
  ∀ (t : Stamp) (raw0 raw1 : Half) (s : State), s.running = true →
    let img := s.cfg.active
    let counted : Nat → Half → SensorChain → SensorChain := fun centre raw c =>
      let y := (Config.filterOut centre c.filter raw).toInt.natAbs
      { c with
        filter := Config.filterNext centre c.filter raw
        knock := c.knock.map fun k =>
          { k with n := k.n + 1, sum := k.sum + y, clip := k.clip || decide (raw.toInt = -32768) || decide (raw.toInt = 32767) }
        guard := c.guard.map fun q => { q with n := q.n + 1, sum := q.sum + y } }
    (∀ k : Nat, (t - s.kfe.lastSample).toNat = 20 * (k + 1) → NoWindowRecorded s →
      exec (.knockSample t raw0 raw1) s = .next
        { s with
          timebase := t
          kfe := { s.kfe with
                   lastSample := t
                   chain := ⟨counted (img.item 23) raw0 s.kfe.chain.s0, counted (img.item 24) raw1 s.kfe.chain.s1⟩ } }) ∧
    ((¬ ∃ k : Nat, (t - s.kfe.lastSample).toNat = 20 * (k + 1)) →
      exec (.knockSample t raw0 raw1) s = .next { s with timebase := t })

/-- R163 to R166, R101: what a capture stores and how it ends. While a KNOCK_RAW capture records a window of a sensor, a raw sample of
that sensor goes to the next free word and raises the header's sample count; one that finds the memory full is not stored, sets MEM_SHORT
in the header, counts one cycle and ends the capture TRUNCATED: the unit is HELD, its hold timer starts with the active capture hold,
and the owner has the record and the CAPTURE alert. The words before stay as they were. A knock window open of the target writes a
header, or ends the capture TRUNCATED when fewer than 4 words are free; a close writes its marks and counts the cycle, and the capture
ends READY at its count; an abandon marks ABANDONED and counts, and at a LAYOUT apply that keeps the target the capture may thereby
end READY. Both are handed by the knock front end with the window's open and
close. A TOOTH capture starts at its first gap end, and from then on stores every accepted period, 65,535 at most, counts every gap end and
ends READY at its count. A sync loss ends a KNOCK_RAW capture that holds a header, and a crank loss a TOOTH capture that has started,
TRUNCATED; any other goes on. That a window still open at the sync loss is abandoned first, and so counts in the recorded number, is the
model's choice (assumption log 24). -/
def Obligations.RawSampleStored : Prop :=
  -- a raw sample of the recorded window
  (∀ (t : Stamp) (raw0 raw1 : Half) (s : State) (k : Nat) (r : Request) (σ : Sensor) (h : Nat) (kn : KnockIntegrator), s.running = true →
    (t - s.kfe.lastSample).toNat = 20 * (k + 1) → s.cap.unit = .filling → s.cap.activeRequest = some r → r.kind = .knockRaw →
    s.cap.window = some ⟨σ, h⟩ → (s.kfe.chain.get σ).knock = some kn → h + 4 ≤ s.cap.mem.words.length →
    let raw := match σ with | .ks0 => raw0 | .ks1 => raw1
    ∃ u : State, exec (.knockSample t raw0 raw1) s = .next u ∧
      u = { s with timebase := t, kfe := u.kfe, cap := u.cap, ports := u.ports } ∧
      (∀ v : State, exec (.knockSample t raw0 raw1) { s with cap := { s.cap with unit := .free } } = .next v → u.kfe = v.kfe) ∧
      (s.cap.mem.words.length < 4096 →
        u.ports = s.ports ∧
        u.cap = { s.cap with mem := u.cap.mem } ∧
        u.cap.mem.words.length = s.cap.mem.words.length + 1 ∧
        u.cap.mem.words.getLast? = some raw ∧
        (u.cap.mem.words[h + 2]? = (s.cap.mem.words[h + 2]?).map (· + 1)) ∧
        (∀ i, i < s.cap.mem.words.length → i ≠ h + 2 → u.cap.mem.words[i]? = s.cap.mem.words[i]?)) ∧
      (s.cap.mem.words.length = 4096 →
        u.cap = { s.cap with mem := u.cap.mem, recorded := s.cap.recorded + 1, window := none, unit := .held,
                             holdStart := t, holdTicks := s.cfg.active.holdMs * 2000 } ∧
        u.cap.mem.words.length = 4096 ∧
        (u.cap.mem.words[h + 3]? = (s.cap.mem.words[h + 3]?).map (· ||| 4#16)) ∧
        (∀ i, i ≠ h + 3 → u.cap.mem.words[i]? = s.cap.mem.words[i]?) ∧
        u.ports = s.ports.set r.port
          { offered ⟨r.target, s.adec.cycle, t, .capture r.handle .truncated .knockRaw 4096⟩ (s.ports.get r.port) with
            alerts := (offered ⟨r.target, s.adec.cycle, t, .capture r.handle .truncated .knockRaw 4096⟩
                        (s.ports.get r.port)).alerts ||| 4#5 })) ∧
  -- the notices of the knock front end to a KNOCK_RAW capture
  (∀ (t : Stamp) (s : State) (r : Request) (σ : Sensor), s.cap.unit = .filling → s.cap.activeRequest = some r →
    r.kind = .knockRaw →
    let words := s.cap.mem.words
    let closed : Nat → Half → State := fun h marks =>
      { s with cap := { s.cap with mem := ⟨words.modify (h + 3) (· ||| marks)⟩, recorded := s.cap.recorded + 1, window := none } }
    (∀ (n : Cyl) (cycle : Half) (g : Gain),
      (r.target ≠ some n → s.noticeOpen t σ n cycle g = s) ∧
      (r.target = some n → words.length + 4 ≤ 4096 →
        s.noticeOpen t σ n cycle g =
          { s with cap := { s.cap with
                            window := some ⟨σ, words.length⟩
                            mem := ⟨words ++ [cycle, BitVec.ofNat 16 g.value, 0#16, if σ = .ks0 then 0#16 else 16#16]⟩ } }) ∧
      (r.target = some n → 4096 < words.length + 4 → s.noticeOpen t σ n cycle g = s.captureHeld t r .truncated)) ∧
    (∀ (h : Nat) (clipped noWindow : Bool), s.cap.window = some ⟨σ, h⟩ →
      let v := closed h (match clipped, noWindow with
        | false, false => 0#16 | true, false => 1#16 | false, true => 2#16 | true, true => 3#16)
      (s.cap.recorded + 1 = r.count → s.noticeClose t σ clipped noWindow = v.captureHeld t r .ready) ∧
      (s.cap.recorded + 1 ≠ r.count → s.noticeClose t σ clipped noWindow = v)) ∧
    (∀ h : Nat, s.cap.window = some ⟨σ, h⟩ →
      s.noticeAbandon t σ false = closed h 8#16 ∧
      let kept := s.cap.recorded + 1 = r.count ∧ ∃ c : Cyl, r.target = some c ∧ s.cfg.active.hasCyl c = true
      (kept → s.noticeAbandon t σ true = (closed h 8#16).captureHeld t r .ready) ∧
      (¬ kept → s.noticeAbandon t σ true = closed h 8#16)) ∧
    ((∀ h : Nat, s.cap.window ≠ some ⟨σ, h⟩) →
      ∀ b d : Bool, s.noticeClose t σ b d = s ∧ s.noticeAbandon t σ b = s)) ∧
  (∀ (t : Stamp) (c : Half) (s : State) (z : Int) (i : Nat) (v w : State), vget false s.smap.marks i = true →
    let r := s.cfg.active.row (s.cfg.active.runStart + i)
    let cycle := (⟨z, .slotBoundary, i⟩ : LayoutEvent).instCycle c
    let g := (s.kfe.rowGain (s.cfg.active.runStart + i)).gain
    (State.raise t c { s with cap := { s.cap with unit := .free } } ⟨z, .knockOpen, i⟩ = v →
      State.raise t c s ⟨z, .knockOpen, i⟩ = State.noticeOpen { v with cap := s.cap } t r.sensor r.cyl cycle g) ∧
    (∀ k : KnockIntegrator, (s.kfe.chain.get r.sensor).knock = some k →
      w = (s.autoRange t r.sensor k).noticeClose t r.sensor k.clip (decide (k.n < 4)) →
      State.raise t c s ⟨z, .knockClose, i⟩ =
        State.tryKnock
          { w with
            kfe := { w.kfe with chain := s.kfe.chain.set r.sensor { s.kfe.chain.get r.sensor with knock := none } }
            cyt := { w.cyt with
                     pendingList := w.cyt.pendingList.map fun y =>
                       if y.slot = k.slot ∧ y.cycle = k.cycle then { y with knockPlace := some k.result } else y } }
          t k.slot k.cycle)) ∧
  -- a TOOTH capture
  (∀ (t e : Stamp) (a : Adec) (s : State) (r : Request), s.running = true → KeepsCrankSync s t a → s.adec.lastEdge = some e →
    s.cap.unit = .filling → s.cap.activeRequest = some r → r.kind = .tooth → s.cap.mem.words.length < 4096 →
    let gapEnd := a.toothIndex = 0
    let word : Half := BitVec.ofNat 16 (min 65535 (t - e).toNat)
    let v : State := { s with timebase := t, adec := a }
    let stored : State := { v with cap := { s.cap with mem := ⟨s.cap.mem.words ++ [word]⟩ } }
    let counted : State := { stored with cap := { stored.cap with recorded := s.cap.recorded + 1 } }
    ∀ u : State,
      ((s.cap.started = false ∧ ¬ gapEnd ∧ u = v) ∨
       (s.cap.started = false ∧ gapEnd ∧ u = { v with cap := { s.cap with started := true } }) ∨
       (s.cap.started = true ∧ ¬ gapEnd ∧ u = stored) ∨
       (s.cap.started = true ∧ gapEnd ∧ s.cap.recorded + 1 ≠ r.count ∧ u = counted) ∨
       (s.cap.started = true ∧ gapEnd ∧ s.cap.recorded + 1 = r.count ∧ u = counted.captureHeld t r .ready)) →
      (s.adec.sync = .crankSync → exec (.crankEdge t s.toothEdge) s = .next u) ∧
      (s.adec.sync = .fullSync → s.adec.toothAngle ≤ a.toothAngle →
        exec (.crankEdge t s.toothEdge) s = .next
          ((s.cfg.active.eventsBetween s.adec.nextAngle a.toothAngle).foldl (State.raise t s.adec.cycle)
            { u with adec := { u.adec with nextAngle := max s.adec.nextAngle (a.toothAngle + 1) } }))) ∧
  -- the ends by a sync loss and by a crank loss
  (∀ (t : Stamp) (before : SyncState) (s : State) (r : Request), s.cap.unit = .filling → s.cap.activeRequest = some r →
    let u := s.lossEvents t before
    let ends : State → Prop := fun v =>
      u.cap = (v.captureHeld t r .truncated).cap ∧ u.ports = (v.captureHeld t r .truncated).ports
    (r.kind = .knockRaw → before = .fullSync → s.adec.sync ≠ .fullSync → s.cap.mem.words ≠ [] →
      (s.cap.window = none → ends s) ∧
      (∀ w : CapWindow, s.cap.window = some w →
        ends { s with cap := { s.cap with mem := ⟨s.cap.mem.words.modify (w.header + 3) (· ||| 8#16)⟩
                                          recorded := s.cap.recorded + 1, window := none } })) ∧
    (r.kind = .tooth → (before = .fullSync ∨ before = .crankSync) → (s.adec.sync = .seek ∨ s.adec.sync = .halted) →
      s.cap.started = true → ends s) ∧
    (((r.kind = .knockRaw ∧ (before ≠ .fullSync ∨ (s.cap.mem.words = [] ∧ s.cap.window = none))) ∨
        (r.kind = .tooth ∧ (s.cap.started = false ∨ s.adec.sync = .crankSync))) →
      u.cap = s.cap ∧ u.ports = s.ports))

/-- R93, R94: the window results. A knock window of fewer than 4 samples is NO_WINDOW with I and I_n absent; otherwise
I = min(65,535, trunc(2 × sum / n)) and I_n = I × 32 / g exactly, at most 2,097,120. A guard result is VOID under the void mark,
otherwise SHORT below 4 samples, otherwise VALID with G_n formed in the same way. R95, R99: the close of a tracked slot's knock
window takes the auto-range step, closes the integrator and writes the result into the knock place of the integrator's instance, and
the close of a guard window closes its integrator and writes the guard place; each then hands the instance to KNA if it is ready
(R107). A close without an open integrator does nothing. The capture unit's share, while a KNOCK_RAW capture records, is R163's. -/
def Obligations.WindowResults : Prop :=
  (∀ k : KnockIntegrator, k.result.n = k.n ∧ k.result.clipped = k.clip ∧ k.result.gain = k.gain ∧
    (k.result.noWindow = true ↔ k.n < 4) ∧
    (k.n < 4 → k.result.i = none ∧ k.result.inorm = none) ∧
    (4 ≤ k.n → ∃ i v : Nat, k.result.i = some i ∧ k.result.inorm = some v ∧ i = min 65535 (2 * k.sum / k.n) ∧
      v * k.gain.value = i * 32 ∧ v ≤ 2097120)) ∧
  (∀ q : GuardIntegrator, q.result.n = q.n ∧ q.result.gain = q.gain ∧
    (q.void = true → q.result.state = .void ∧ q.result.gn = none) ∧
    (q.void = false → q.n < 4 → q.result.state = .short ∧ q.result.gn = none) ∧
    (q.void = false → 4 ≤ q.n → q.result.state = .valid ∧
      ∃ v : Nat, q.result.gn = some v ∧ v * q.gain.value = min 65535 (2 * q.sum / q.n) * 32 ∧ v ≤ 2097120)) ∧
  (∀ (t : Stamp) (c : Half) (s : State) (z : Int) (i : Nat), vget false s.smap.marks i = true →
    let σ := (s.cfg.active.row (s.cfg.active.runStart + i)).sensor
    let chain := s.kfe.chain.get σ
    let closed : State → SensorChain → (SlotInst → SlotInst) → Nat → Half → State := fun v y f slot cycle =>
      State.tryKnock
        { v with
          kfe := { v.kfe with chain := v.kfe.chain.set σ y }
          cyt := { v.cyt with
                   pendingList := v.cyt.pendingList.map fun w => if w.slot = slot ∧ w.cycle = cycle then f w else w } }
        t slot cycle
    (chain.knock = none → State.raise t c s ⟨z, .knockClose, i⟩ = s) ∧
    (∀ k : KnockIntegrator, chain.knock = some k → NoRawCapture s →
      State.raise t c s ⟨z, .knockClose, i⟩ =
        closed (s.autoRange t σ k) { chain with knock := none } (fun w => { w with knockPlace := some k.result }) k.slot k.cycle) ∧
    (chain.guard = none → State.raise t c s ⟨z, .guardClose, i⟩ = s) ∧
    (∀ q : GuardIntegrator, chain.guard = some q →
      State.raise t c s ⟨z, .guardClose, i⟩ =
        closed s { chain with guard := none } (fun w => { w with guardPlace := .result q.result }) q.slot q.cycle))

/-- R99, R100: the auto-range step at a knock window close, for a row whose auto-range is on and whose gain in use is still the gain the
window recorded: a clipped window steps the gain down with a GAIN record of cause CLIP, gain 1 stays; a window without a level leaves
gain and count; an I below 1,024 counts, and the sixteenth in a row steps the gain up with a GAIN record of cause LOW, gain 32 stays;
any other level clears the count. With auto-range off or another gain in use nothing changes. -/
def Obligations.AutoRange : Prop :=
  ∀ (t : Stamp) (σ : Sensor) (s : State) (k : KnockIntegrator), k.row < 12 →
    let img := s.cfg.active
    let g := (s.kfe.rowGain k.row).gain
    let low := (s.kfe.rowGain k.row).lowRun
    let i := min 65535 (2 * k.sum / k.n)
    let left : Gain → Nat → State := fun g' low' =>
      { s with kfe := { s.kfe with rows := vset s.kfe.rows k.row ⟨g', low'⟩ } }
    let stepped : Gain → GainCause → State := fun g' cause =>
      { left g' 0 with ports := s.ports.map (offered ⟨some k.cyl, k.cycle, t, .gain σ k.row g g' cause⟩) }
    ((img.row k.row).autoRange = false ∨ g ≠ k.gain → s.autoRange t σ k = s) ∧
    ((img.row k.row).autoRange = true → g = k.gain →
      (k.clip = true → g ≠ .g1 → ∃ g' : Gain, 2 * g'.value = g.value ∧ s.autoRange t σ k = stepped g' .clip) ∧
      (k.clip = true → g = .g1 → s.autoRange t σ k = left g 0) ∧
      (k.clip = false → k.n < 4 → s.autoRange t σ k = left g low) ∧
      (k.clip = false → 4 ≤ k.n → i < 1024 → low + 1 < 16 → s.autoRange t σ k = left g (low + 1)) ∧
      (k.clip = false → 4 ≤ k.n → i < 1024 → 16 ≤ low + 1 → g ≠ .g32 →
        ∃ g' : Gain, g'.value = 2 * g.value ∧ s.autoRange t σ k = stepped g' .low) ∧
      (k.clip = false → 4 ≤ k.n → i < 1024 → 16 ≤ low + 1 → g = .g32 → s.autoRange t σ k = left g 0) ∧
      (k.clip = false → 4 ≤ k.n → 1024 ≤ i → s.autoRange t σ k = left g 0))

/-- R109 to R116: the knock verdict of an instance, the first test that applies: overspeed, a cut reason, NO_WINDOW, CLIPPED, a VALID
guard result whose ratio Q = min(65,535, trunc(G_n × 256 / max(GREF, floor))) is at or above the guard threshold, a knock ratio
K = min(65,535, trunc(I_n × 256 / REF)) at or above the threshold of the set and band, and otherwise CLEAN. Up to NOISE, KNA's state is
held; K and Q are carried where they were formed. R107, R108, R118: an instance of the list is decided when its knock place holds a
result, its guard place a result or NOT_CONFIGURED and its spark part is present, once; before that, and again, nothing happens. The
inputs are ADEC's overspeed and speed band, the instance's snapshot, spark part and front-end part, and KNA's state. Then KNA's
state is written, the record offered to every port, the knock part with the cylinder's REF put into the entry, and the completion test
made. -/
def Obligations.KnockVerdicts : Prop :=
  (∀ (img : Image) (kna : Kna) (x : KnockInputs),
    let d := judgeKnock img kna x
    let gref := kna.gref.get x.sensor
    let K := min 65535 (x.knock.inorm.getD 0 * 256 / (kna.cyl.get x.cyl).ref)
    let thr := vget 0 (img.knockTable x.set) x.band
    let carried : KnockVerdict → Option KnockReason → Option Nat → Option Nat → KnockJudged := fun v r k q =>
      ⟨v, r, k, x.knock.inorm, x.knock.gain, x.guard.state, q⟩
    (x.overspeed = true → d = ⟨kna, carried .notAssessed (some .overspeed) none none, none⟩) ∧
    (x.overspeed = false → x.cut.isSome → d = ⟨kna, carried .notAssessed (some .cut) none none, none⟩) ∧
    (x.overspeed = false → x.cut = none → x.knock.noWindow = true → d = ⟨kna, carried .noWindow none none none, none⟩) ∧
    (x.overspeed = false → x.cut = none → x.knock.noWindow = false → x.knock.clipped = true →
      d = ⟨kna, carried .clipped none none none, none⟩) ∧
    (x.overspeed = false → x.cut = none → x.knock.noWindow = false → x.knock.clipped = false →
      (∀ (g : GuardResult) (gn : Nat), x.guard = .result g → g.state = .valid → g.gn = some gn →
        let Q := min 65535 (gn * 256 / max gref img.refFloor)
        (img.guardThr ≤ Q → d = ⟨kna, carried .noise none none (some Q), some (.noise x.sensor Q gn)⟩) ∧
        (Q < img.guardThr → thr ≤ K → d.judged = carried .knock none (some K) (some Q)) ∧
        (Q < img.guardThr → K < thr → d.judged = carried .clean none (some K) (some Q))) ∧
      (x.guard.state ≠ .valid →
        (thr ≤ K → d.judged = carried .knock none (some K) none) ∧
        (K < thr → d.judged = carried .clean none (some K) none) ∧ d.kna.gref = kna.gref))) ∧
  (∀ (t : Stamp) (s : State) (slot : Nat) (cycle : Half),
    let found := s.cyt.pendingList.find? fun y => decide (y.slot = slot) && decide (y.cycle = cycle)
    (found = none → s.tryKnock t slot cycle = s) ∧
    (∀ i : SlotInst, found = some i →
      (i.knockPlace = none ∨ i.guardPlace = .empty ∨ i.spark = none ∨ i.knock.isSome = true → s.tryKnock t slot cycle = s) ∧
      (∀ (k : KnockResult) (p : SparkPart) (m : Snapshot), i.knockPlace = some k → i.guardPlace ≠ .empty → i.spark = some p →
        i.snapshot = some m → i.knock = none →
        let d := judgeKnock s.cfg.active s.kna
          ⟨s.adec.overspeed, s.adec.band, p.cut, m.set, i.cyl, i.sensor, k, i.guardPlace⟩
        s.tryKnock t slot cycle =
          State.tryComplete
            { s with
              kna := d.kna
              ports := match d.record with
                | none => s.ports
                | some b => s.ports.map (offered ⟨some i.cyl, i.cycle, t, b⟩)
              cyt := { s.cyt with
                       pendingList := s.cyt.pendingList.map fun y =>
                         if y.slot = slot ∧ y.cycle = cycle then
                           { y with knock := some ⟨d.judged, (d.kna.cyl.get i.cyl).ref⟩ }
                         else y } }
            t slot cycle)))

/-- R113, R115, R116, R117: what a KNOCK or CLEAN verdict does to KNA, once the guard threshold has not been reached. GREF of the sensor
adapts towards a VALID G_n, by the difference divided by 2^s toward zero and clamped from the floor to 2,097,120. KNOCK raises the
retard by one step, two at or above twice the threshold, up to the maximum, clears the recovery count, keeps REF and emits the KNOCK
record; CLEAN adapts REF in the same way and counts, and the count that reaches the recovery cycles lowers the retard by the recovery
step and clears. The other cylinders and the other sensor stay. -/
def Obligations.RetardAndReferences : Prop :=
  ∀ (img : Image) (kna : Kna) (x : KnockInputs), img.refFloor ≤ 2097120 →
    x.overspeed = false → x.cut = none → x.knock.noWindow = false → x.knock.clipped = false →
    (∀ gn, x.guard.gn = some gn → min 65535 (gn * 256 / max (kna.gref.get x.sensor) img.refFloor) < img.guardThr) →
    let d := judgeKnock img kna x
    let c := kna.cyl.get x.cyl
    let c' := d.kna.cyl.get x.cyl
    let inorm := x.knock.inorm.getD 0
    let K := min 65535 (inorm * 256 / c.ref)
    let thr := vget 0 (img.knockTable x.set) x.band
    let step := if 2 * thr ≤ K then 2 * img.retardStep else img.retardStep
    let adapted : Nat → Nat → Nat → Prop := fun old v new =>
      let y : Int := (old : Int) + Int.tdiv ((v : Int) - old) (2 ^ img.adaptShift)
      (y ≤ img.refFloor → new = img.refFloor) ∧ (2097120 ≤ y → new = 2097120) ∧
        ((img.refFloor : Int) ≤ y → y ≤ 2097120 → (new : Int) = y)
    (∀ y : Cyl, y ≠ x.cyl → d.kna.cyl.get y = kna.cyl.get y) ∧
    (∀ σ : Sensor, σ ≠ x.sensor → d.kna.gref.get σ = kna.gref.get σ) ∧
    (x.guard.gn = none → d.kna.gref.get x.sensor = kna.gref.get x.sensor) ∧
    (∀ gn, x.guard.gn = some gn → adapted (kna.gref.get x.sensor) gn (d.kna.gref.get x.sensor)) ∧
    (thr ≤ K → c'.ref = c.ref ∧ c'.retard = min img.retardMax (c.retard + step) ∧ c'.recovery = 0 ∧
      d.record = some (.knock K inorm c'.retard step x.set)) ∧
    (K < thr → d.record = none ∧ adapted c.ref inorm c'.ref ∧
      (img.recoveryCycles ≤ c.recovery + 1 → c'.retard = c.retard - img.recoveryStep ∧ c'.recovery = 0) ∧
      (c.recovery + 1 < img.recoveryCycles → c'.retard = c.retard ∧ c'.recovery = c.recovery + 1))

/-- R121, R139: an accepted RETARD_RESET answers the six retards as they stood, and sets retard and recovery count of each cylinder of
the mask to 0, in KNA and in its published entry. A mask of 0 or above 63 is answered BAD_VALUE, and another length BAD_LENGTH. Nothing
else changes: no record is emitted, and a pending commit does not hold the command back. -/
def Obligations.RetardReset : Prop :=
  ∀ (t : Stamp) (p : Port) (m : Byte) (s : State), s.ready p →
    (∀ pl : List Byte, pl.length ≠ 1 → pl.length ≤ 250 →
      exec (.retardReset t p pl) s = .next (s.answered p t ⟨.badLength, []⟩)) ∧
    (m = 0 ∨ 63 < m.toNat → exec (.retardReset t p [m]) s = .next (s.answered p t ⟨.badValue, []⟩)) ∧
    (m ≠ 0 → m.toNat ≤ 63 →
      ∃ u : State, exec (.retardReset t p [m]) s = .next u ∧
        u = { s.answered p t ⟨.ok, s.kna.cyl.toList.map fun c => BitVec.ofNat 8 c.retard⟩ with
              kna := { s.kna with cyl := u.kna.cyl }, cyt := { s.cyt with entry := u.cyt.entry } } ∧
        ∀ c : Cyl,
          (m.getLsbD (cylNumber c - 1) = true →
            u.kna.cyl.get c = { s.kna.cyl.get c with retard := 0, recovery := 0 } ∧
            u.cyt.entry.get c = { s.cyt.entry.get c with retard := 0, recovery := 0 }) ∧
          (m.getLsbD (cylNumber c - 1) = false →
            u.kna.cyl.get c = s.kna.cyl.get c ∧ u.cyt.entry.get c = s.cyt.entry.get c))

/-! ### The cylinder table -/

/-- R133, R134, R138, R140, R141: the completion test after a misfire part or a knock part is written. With both parts present the
instance completes: its cylinder's published entry is replaced whole with the instance's values and KNA's retard and recovery count, the
assessed mark set and the lifetime counters raised, saturating; a SLOT record with the same values is offered to every port; and the
instance leaves the list. The completion notice goes to the capture unit behind the record and before the instance leaves (R134, R160);
while no request waits for a condition, nothing else changes. With a part missing nothing happens. -/
def Obligations.Completion : Prop :=
  ∀ (t : Stamp) (s : State) (i : SlotInst),
    s.cyt.pendingList.find? (fun y => decide (y.slot = i.slot) && decide (y.cycle = i.cycle)) = some i →
    (i.misfire = none ∨ i.knock = none → s.tryComplete t i.slot i.cycle = s) ∧
    (∀ (m : MisfirePart) (k : KnockPart) (n : Snapshot) (sp : SparkPart), i.misfire = some m → i.knock = some k →
      i.snapshot = some n → i.spark = some sp →
      let c := s.kna.cyl.get i.cyl
      let old := (s.cyt.entry.get i.cyl)
      let up : Bool → Nat → Nat := fun b v => if b then min 65535 (v + 1) else v
      let done : State :=
        { s with
          cyt :=
            { pendingList := s.cyt.pendingList.filter fun y => !(decide (y.slot = i.slot) && decide (y.cycle = i.cycle))
              entry := s.cyt.entry.set i.cyl
                { inUse := old.inUse, assessed := true, row := i.row, cycle := i.cycle, misfire := m.judged, cons := m.cons,
                  block := m.block, knock := k.judged, ref := k.ref, retard := c.retard, recovery := c.recovery, spark := sp,
                  set := n.set, stale := n.stale,
                  life := { misfires := up (decide (m.judged.verdict = .misfire)) old.life.misfires
                            knocks := up (decide (k.judged.verdict = .knock)) old.life.knocks
                            noise := up (decide (k.judged.verdict = .noise)) old.life.noise
                            cuts := up sp.cut.isSome old.life.cuts } } }
          ports := s.ports.map (offered ⟨some i.cyl, i.cycle, t,
            .slot i.row m.judged k.judged c.retard c.recovery sp n.set n.stale⟩) }
      (s.cap.requests = [] → s.tryComplete t i.slot i.cycle = done) ∧
      s.tryComplete t i.slot i.cycle = done.noticeCompletion t i.cyl m.judged.verdict k.judged.verdict)

/-! ### Ports, requests and records -/

/-- R23, R39, R56, R84, R102, R129, R142, R172, R178, R187, R191: the reading commands and NO_OP, taken with the payload each asks for,
answer OK with a payload of the stated length and change nothing but the port's own link; a value out of range is answered
BAD_VALUE. Each payload is the table of fields of its rule, in order and most significant byte first, read from the state as it stands
when the command is taken. Flags that the tables list without bit numbers stand from bit 0 on in the order listed (DEDUCED, assumption
log 11), bit 0 of the open spark windows is cylinder 1 (DEDUCED, log 20), and the flags and load band of an empty declaration slot are
0 (DESIGN CHOICE, log 21). -/
def Obligations.ReadsChangeNothing : Prop :=
  (∀ (t : Stamp) (p : Port) (s : State), s.ready p →
    let reads : Instr → Nat → Prop := fun c n =>
      ∃ payload : List Byte, payload.length = n ∧ exec c s = .next (s.answered p t ⟨.ok, payload⟩)
    let refused : Instr → Prop := fun c => exec c s = .next (s.answered p t ⟨.badValue, []⟩)
    reads (.noOp t p []) 0 ∧ reads (.status t p []) 16 ∧ reads (.readAngle t p []) 32 ∧ reads (.readOpstate t p []) 27 ∧
    reads (.readMisfire t p []) 52 ∧ reads (.readKnockFront t p []) 34 ∧ reads (.readKnockState t p []) 51 ∧
    reads (.readTable t p []) 245 ∧ reads (.captureStatus t p []) (13 + 8 * s.cap.requests.length) ∧
    (∀ c : Byte, 1 ≤ c.toNat → c.toNat ≤ 6 → reads (.readCylinder t p [c]) 45) ∧
    (∀ c : Byte, c.toNat = 0 ∨ 6 < c.toNat → refused (.readCylinder t p [c])) ∧
    (∀ image first count : Byte, image.toNat ≤ 1 → first.toNat ≤ 11 → 1 ≤ count.toNat → first.toNat + count.toNat ≤ 12 →
      reads (.readRows t p [image, first, count]) (7 + 12 * count.toNat)) ∧
    (∀ image first count : Byte, 1 < image.toNat ∨ 11 < first.toNat ∨ count.toNat = 0 ∨ 12 < first.toNat + count.toNat →
      refused (.readRows t p [image, first, count])) ∧
    (∀ sec : Byte, sec.toNat ≤ 4 →
      let n := if sec.toNat = 0 then 142 else if sec.toNat ≤ 2 then 138 else 42
      reads (.readActive t p [sec]) n ∧ reads (.readStaged t p [sec]) n) ∧
    (∀ sec : Byte, 4 < sec.toNat → refused (.readActive t p [sec]) ∧ refused (.readStaged t p [sec]))) ∧
  (∀ (t : Stamp) (p : Port) (s : State), s.ready p →
    let answers : Instr → List (Nat × Nat) → Prop := fun c fields => exec c s = .next (s.answered p t ⟨.ok, layout fields⟩)
    let img := s.cfg.active
    let x := s.ports.get p
    let a := s.adec
    let m := s.mfa
    let o := s.ops
    let portNumber : Option Port → Nat := fun q => match q with | some .a => 0 | some .b => 1 | some .c => 2 | none => 3
    let stamp : List (Nat × Nat) := [(4, t.toNat)]
    answers (.status t p [])
      [(1, x.alerts.toNat), (1, x.alertMask.toNat), (1, x.queue.length), (2, x.dropped), (2, x.subscription.toNat),
       (1, x.format.code), (1, x.watermark), (1, a.sync.code), (1, o.set.code), (4, s.cfg.generation.toNat),
       (1, bits [s.cfg.pendingCommit.isSome, x.attention])] ∧
    answers (.readAngle t p [])
      ([(1, a.sync.code), (1, a.polarity.code), (1, img.polMode),
        (1, if a.sync = .fullSync then 2 else if a.sync = .crankSync then 1 else 0),
        (2, if a.sync = .fullSync then a.cycleAngle img t else if a.sync = .crankSync then a.revAngle img t else 0),
        (2, min 65535 a.rpm), (1, a.band), (1, bits [a.overspeed, a.inWindow]), (4, a.trev), (2, a.cycle.toNat)] ++ stamp ++
       [(2, a.anomalyTotal), (2, a.syncLossTotal), (2, a.camFaultTotal), (2, a.flipTotal), (2, a.verifyFailTotal),
        (1, a.verifyFails), (1, a.camFaults)]) ∧
    answers (.readOpstate t p [])
      ([(1, bits [o.antiLag, o.stale, o.alsin, decide (img.alsinEnable = 1 ∧ (o.alsin = true ↔ img.alsinActive = 1))]),
        (1, o.fuelCut.toNat), (1, o.band), (1, o.set.code), (1, o.tail), (1, img.tailCycles), (1, img.igsMask),
        (1, bits (allCyls.map fun n => (s.igsu.get n).isSome))] ++ stamp ++
       allPorts.flatMap fun q =>
        match o.decl.get q with
        | some d => [(1, 1), (1, bits [d.antiLag]), (1, d.band), (2, (d.duration - (t - d.start).toNat) / 2000)]
        | none => [(1, 0), (1, 0), (1, 0), (2, 0)]) ∧
    answers (.readMisfire t p [])
      ([(1, m.history.length)] ++ (List.range 8).map (fun i => (2, m.history.getD i 0)) ++
       [(2, if m.history.length < 8 then 0 else (m.history.sum - m.history.foldl max 0) / 7),
        (2, m.blockCycles), (2, img.blockLength)] ++
       (allCyls.flatMap fun n =>
        [(1, (m.counts.get n).cons), (1, bits [(m.counts.get n).persist]), (2, (m.counts.get n).block)]) ++
       [(1, (m.segments.filter fun g => g.time.isSome).length)] ++ stamp) ∧
    answers (.readKnockFront t p [])
      (([Sensor.ks0, Sensor.ks1].flatMap fun σ =>
        let c := s.kfe.chain.get σ
        [(1, c.stage.value), (1, img.item (23 + σ.number)),
         (1, bits [c.knock.isSome, c.guard.isSome, match c.guard with | some q => q.void | none => false])]) ++
       ((List.range 12).flatMap fun r => [(1, (s.kfe.rowGain r).gain.value), (1, (s.kfe.rowGain r).lowRun)]) ++ stamp) ∧
    answers (.readKnockState t p [])
      ((allCyls.flatMap fun n =>
        [(4, (s.kna.cyl.get n).ref), (1, (s.kna.cyl.get n).retard), (1, (s.kna.cyl.get n).recovery)]) ++
       [(4, s.kna.gref.get .ks0), (4, s.kna.gref.get .ks1), (1, img.retardMax), (1, img.recoveryCycles), (1, img.adaptShift)] ++
       stamp) ∧
    (∀ (b : Byte) (n : Cyl), cylNumber n = b.toNat →
      answers (.readCylinder t p [b]) ([(1, b.toNat)] ++ stamp ++ entryFields (s.cyt.entry.get n))) ∧
    answers (.readTable t p [])
      (stamp ++ [(1, s.cyt.pendingList.length)] ++ allCyls.flatMap fun n => entryFields (s.cyt.entry.get n)) ∧
    answers (.captureStatus t p [])
      ([(1, s.cap.unit.code), (1, portNumber (s.cap.activeRequest.map (·.port))), (1, s.cap.active.getD 0),
        (2, s.cap.mem.words.length),
        (2, if s.cap.unit = .held then (s.cap.holdTicks - (t - s.cap.holdStart).toNat) / 2000 else 0),
        (1, s.cap.recorded), (1, s.cap.requests.length)] ++ stamp ++
       s.cap.requests.flatMap fun r =>
        [(1, r.handle), (1, portNumber (some r.port)), (1, r.state.code), (1, r.kind.code + 2 * r.mode.code),
         (1, r.target.elim 0 cylNumber), (1, r.count), (1, r.named.toNat), (1, r.latched.toNat)]) ∧
    (∀ image first count : Byte, image.toNat ≤ 1 → first.toNat ≤ 11 → 1 ≤ count.toNat → first.toNat + count.toNat ≤ 12 →
      let read := if image.toNat = 0 then s.cfg.active else s.cfg.staged
      answers (.readRows t p [image, first, count])
        ([(1, image.toNat), (1, read.runStart), (1, read.runEnd), (1, s.smap.cursor.isSome.toNat), (1, s.smap.cursor.getD 0),
          (1, first.toNat), (1, count.toNat)] ++
         (List.range count.toNat).flatMap fun k => rowFields read (first.toNat + k))) ∧
    (∀ sec : Byte, sec.toNat ≤ 4 →
      let header : Nat → List (Nat × Nat) := fun image =>
        [(1, image), (1, sec.toNat), (4, s.cfg.generation.toNat),
         (1, bits [s.cfg.dirty, s.cfg.pendingCommit.isSome,
                   match s.cfg.pendingCommit with | some k => decide (k.timing = .atCycle) | none => false]),
         (1, portNumber s.cfg.lastStaging), (1, match s.cfg.pendingCommit with | some k => k.cls.code | none => 3),
         (1, portNumber (s.cfg.pendingCommit.map (·.port)))]
      answers (.readActive t p [sec]) (header 0 ++ sectionFields s.cfg.active sec.toNat) ∧
      answers (.readStaged t p [sec]) (header 1 ++ sectionFields s.cfg.staged sec.toNat))) ∧
  ([SyncState.halted, .seek, .verify, .crankSync, .fullSync].map SyncState.code = [0, 1, 2, 3, 4] ∧
    [Polarity.normal, .inverted].map Polarity.code = [0, 1] ∧ [Format.compact, .full].map Format.code = [0, 1] ∧
    [ThrSet.setA, .setB].map ThrSet.code = [0, 1] ∧ [UnitState.free, .filling, .held].map UnitState.code = [0, 1, 2] ∧
    [ReqState.waiting, .triggered, .active].map ReqState.code = [0, 1, 2] ∧
    [CapKind.knockRaw, .tooth].map CapKind.code = [0, 1] ∧ [CapMode.once, .repeating].map CapMode.code = [0, 1] ∧
    [CommitClass.calibration, .layout, .geometry].map CommitClass.code = [0, 1, 2] ∧
    [MisfireVerdict.notAssessed, .noMisfire, .misfire, .rough, .cut, .neighborCut].map MisfireVerdict.code = [0, 1, 2, 3, 4, 5] ∧
    [none, some MisfireReason.warmup, some .lowSpeed, some .overspeed, some .spark, some .fuel].map misfireReasonCode =
      [0, 1, 2, 3, 4, 5] ∧
    [KnockVerdict.notAssessed, .clean, .knock, .noise, .clipped, .noWindow].map KnockVerdict.code = [0, 1, 2, 3, 4, 5] ∧
    [none, some KnockReason.overspeed, some .cut].map knockReasonCode = [0, 2, 3] ∧
    [GuardState.notConfigured, .void, .short, .valid].map GuardState.code = [0, 1, 2, 3] ∧
    [none, some CutReason.spark, some .fuel].map cutCode = [0, 1, 2] ∧
    [Gain.g1, .g2, .g4, .g8, .g16, .g32].map Gain.value = [1, 2, 4, 8, 16, 32] ∧
    [Sensor.ks0, .ks1].map Sensor.number = [0, 1])

/-- R185 and the length tests of every command of section 11.5. A truncated request or one that fails its check byte is answered
BAD_FRAME, a command code that is not in the table UNKNOWN_COMMAND, and a payload of another length than the command's own BAD_LENGTH,
before every other test of the command; each with payload length 0, and nothing is executed. That the rows BAD_FRAME and
UNKNOWN_COMMAND answer their code whatever bytes and code they carry is the model's choice (assumption log 17). -/
def Obligations.RefusedRequests : Prop :=
  ∀ (t : Stamp) (p : Port) (s : State) (pl : List Byte), s.ready p → pl.length ≤ 250 →
    let wrong : Instr → Nat → Prop := fun c n => pl.length ≠ n → exec c s = .next (s.answered p t ⟨.badLength, []⟩)
    (∀ bytes : List Byte, exec (.badFrame t p bytes) s = .next (s.answered p t ⟨.badFrame, []⟩)) ∧
    (∀ code : Byte, exec (.unknownCommand t p code pl) s = .next (s.answered p t ⟨.unknownCommand, []⟩)) ∧
    wrong (.noOp t p pl) 0 ∧ wrong (.status t p pl) 0 ∧ wrong (.setAlertMask t p pl) 1 ∧ wrong (.clearAlerts t p pl) 1 ∧
    wrong (.portReset t p pl) 0 ∧ wrong (.readAngle t p pl) 0 ∧ wrong (.stageRows t p pl) 5 ∧ wrong (.readRows t p pl) 3 ∧
    wrong (.declareState t p pl) 3 ∧ wrong (.readOpstate t p pl) 0 ∧ wrong (.readMisfire t p pl) 0 ∧
    wrong (.readKnockFront t p pl) 0 ∧ wrong (.readKnockState t p pl) 0 ∧ wrong (.retardReset t p pl) 1 ∧
    wrong (.readCylinder t p pl) 1 ∧ wrong (.readTable t p pl) 0 ∧ wrong (.subscribe t p pl) 4 ∧
    wrong (.fetchRecords t p pl) 1 ∧ wrong (.clearQueue t p pl) 0 ∧ wrong (.captureRequest t p pl) 5 ∧
    wrong (.mark t p pl) 0 ∧ wrong (.captureRead t p pl) 4 ∧ wrong (.captureRelease t p pl) 1 ∧
    wrong (.captureCancel t p pl) 1 ∧ wrong (.captureStatus t p pl) 0 ∧ wrong (.stageGlobal t p pl) 5 ∧
    wrong (.stageTable t p pl) 6 ∧ wrong (.readActive t p pl) 1 ∧ wrong (.readStaged t p pl) 1 ∧ wrong (.discard t p pl) 0 ∧
    wrong (.commit t p pl) 1

/-- R184, R186, R190: the link. A selection that begins while the port is busy or within the start-up period is answered NOT_READY and
leaves the buffer; any other clocks out the buffer's frame, or NONE, and empties the buffer; with a selection in progress there is no
falling edge. A selection answered NOT_READY ends without its request being taken, whatever the request, and with no selection in
progress there is no request. The end of processing frees the port. A second SELECTION_START within a selection, a request row with
no selection in progress and the end of a refused selection, which only let time pass or end it, are DEDUCED (assumption log 10). -/
def Obligations.Selections : Prop :=
  (∀ (t : Stamp) (p : Port) (s : State), s.running = true →
    let x := s.ports.get p
    (x.selection = .idle → s.startUp = true ∨ x.busy = true →
      exec (.selectionStart t p) s = .next
        { s with timebase := t
                 ports := s.ports.set p { x with selection := .refused, dataOut := some ⟨.notReady, []⟩ } }) ∧
    (x.selection = .idle → s.startUp = false → x.busy = false →
      exec (.selectionStart t p) s = .next
        { s with timebase := t
                 ports := s.ports.set p { x with selection := .serving, buffer := none,
                                                 dataOut := some (x.buffer.getD ⟨.none, []⟩) } }) ∧
    (x.selection ≠ .idle → exec (.selectionStart t p) s = .next { s with timebase := t }) ∧
    exec (.processingDone t p) s = .next { s with timebase := t, ports := s.ports.set p { x with busy := false } }) ∧
  (∀ (c : Instr) (t : Stamp) (p : Port) (bytes : List Byte) (s : State), requestFrame c = some (t, p, bytes) →
    s.running = true →
    ((s.ports.get p).selection = .refused →
      exec c s = .next { s with timebase := t
                                ports := s.ports.set p { s.ports.get p with selection := .idle, dataOut := none } }) ∧
    ((s.ports.get p).selection = .idle → exec c s = .next { s with timebase := t }))

/-- R145, R146, R147, R148, R150: an emitted record is offered to each port in one act: a queue that leaves out its kind takes no copy,
one with fewer than 128 records takes it at the newest end, and a full one keeps what it holds, counts the drop, saturating, and sets
QUEUE_OVERFLOW. A record offered to one port touches no other. Every record is 24 bytes in FULL and 12 in COMPACT, so the largest
answers of FETCH_RECORDS fit a frame. Byte 0 holds kind, set bit and cylinder, bytes 1 and 2 the cycle number, and in FULL bytes 3 to 6
the stamp; then come the fields of the kind as R147 and R148 list them, the rest being 0. In a SLOT record the verdict and its reason are
one joined code, the spark code is the angle plus 1,441 or 0, I is trunc(I_n × g / 32), and K and Q saturate at 16,383. -/
def Obligations.RecordOffer : Prop :=
  (∀ (s : State) (r : Record), s.emit r = { s with ports := s.ports.map (offered r) }) ∧
  (∀ (s : State) (p : Port) (r : Record), s.emitTo p r = { s with ports := s.ports.set p (offered r (s.ports.get p)) }) ∧
  (∀ (r : Record), (r.bytes .full).length = 24 ∧ (r.bytes .compact).length = 12) ∧
  5 + Format.perFrame .full * 24 ≤ 250 ∧ 5 + Format.perFrame .compact * 12 ≤ 250 ∧
  (∀ (cyl : Option Cyl) (cycle : Half) (t : Stamp),
    let padded : Nat → List Byte → List Byte := fun n l => l ++ List.replicate (n - l.length) 0
    let sent : RecordBody → Nat → Nat → List (Nat × Nat) → List (Nat × Nat) → Prop := fun body kind set full compact =>
      let r : Record := ⟨cyl, cycle, t, body⟩
      let head : List (Nat × Nat) := [(1, kind * 16 + set * 8 + cyl.elim 0 cylNumber), (2, cycle.toNat)]
      body.kindCode = kind ∧ r.bytes .full = padded 24 (layout (head ++ [(4, t.toNat)] ++ full)) ∧
        r.bytes .compact = padded 12 (layout (head ++ compact))
    let both : RecordBody → Nat → Nat → List (Nat × Nat) → Prop := fun body kind set fields => sent body kind set fields fields
    -- SLOT
    (∀ (row retard recovery mc kc : Nat) (m : MisfireJudged) (k : KnockJudged) (sp : SparkPart) (set : ThrSet) (stale : Bool),
      (m.verdict, m.reason, mc) ∈
        [(MisfireVerdict.notAssessed, some MisfireReason.warmup, 0), (.notAssessed, some .lowSpeed, 1), (.notAssessed, some .overspeed, 2),
         (.noMisfire, none, 3), (.misfire, none, 4), (.rough, none, 5), (.cut, some .spark, 6), (.cut, some .fuel, 6),
         (.neighborCut, none, 7)] →
      (k.verdict, k.reason, kc) ∈
        [(KnockVerdict.notAssessed, some KnockReason.overspeed, 1), (.notAssessed, some .cut, 2), (.clean, none, 3), (.knock, none, 4),
         (.noise, none, 5), (.clipped, none, 6), (.noWindow, none, 7)] →
      let d := match m.index with | some x => twos x.d | none => 0
      let limit := match m.index with | some x => x.limit | none => 0
      let w := match m.index with | some x => x.w | none => 0
      let K := min 16383 (k.k.getD 0)
      let Q := min 16383 (k.q.getD 0)
      let spark := match sp.angle with | some x => (x + 1441).toNat | none => 0
      sent (.slot row m k retard recovery sp set stale) 1 set.code
        [(2, d), (2, stale.toNat * 2 ^ 15 + limit), (2, k.inorm.isSome.toNat * 2 ^ 15 + w),
         (2, k.inorm.getD 0 * k.gain.value / 32), (4, K * 2 ^ 18 + Q * 2 ^ 4 + k.guard.code * 2 ^ 2 + cutCode sp.cut),
         (2, row * 2 ^ 12 + spark), (2, mc * 2 ^ 13 + kc * 2 ^ 10 + k.gain.code * 2 ^ 7 + retard), (1, recovery)]
        [(1, mc * 2 ^ 5 + kc * 2 ^ 2 + cutCode sp.cut), (2, d), (2, stale.toNat * 2 ^ 15 + limit),
         (2, k.guard.code * 2 ^ 14 + K), (1, retard), (1, row * 2 ^ 4 + k.gain.code)]) ∧
    -- the other nine kinds
    (∀ (d : Int) (limit cons : Nat) (set : ThrSet) (stale : Bool),
      both (.misfire d limit cons set stale) 2 set.code [(2, twos d), (2, limit), (1, cons), (1, stale.toNat)]) ∧
    (∀ cons limit : Nat, both (.persist cons limit) 3 0 [(1, cons), (1, limit)]) ∧
    (∀ count length : Nat, both (.rate count length) 4 0 [(2, count), (2, length)]) ∧
    (∀ (k inorm retard step : Nat) (set : ThrSet),
      sent (.knock k inorm retard step set) 5 set.code [(2, k), (3, inorm), (1, retard), (1, step)] [(2, k), (1, retard), (1, step)]) ∧
    (∀ (σ : Sensor) (q gn : Nat), sent (.noise σ q gn) 6 0 [(1, σ.number), (2, q), (3, gn)] [(1, σ.number), (2, q)]) ∧
    (∀ (σ : Sensor) (row : Nat) (old new : Gain) (cause : GainCause),
      both (.gain σ row old new cause) 7 0
        [(1, σ.number), (1, row), (1, old.value), (1, new.value), (1, match cause with | .clip => 0 | .low => 1)]) ∧
    (∀ (state : SyncState) (cause : SyncCause) (polarity : Polarity),
      both (.sync state cause polarity) 8 0 [(1, state.code), (1, cause.code), (1, polarity.code)]) ∧
    (∀ (handle words : Nat) (o : CapOutcome) (kind : CapKind),
      sent (.capture handle o kind words) 9 0 [(1, handle), (1, o.code), (1, kind.code), (2, words)] [(1, handle), (1, o.code)]) ∧
    (∀ (generation : BitVec 32) (p : Port) (cls : CommitClass),
      both (.config generation p cls) 10 0
        [(2, generation.toNat % 65536), (1, match p with | .a => 0 | .b => 1 | .c => 2), (1, cls.code)])) ∧
  ([SyncCause.edge, .gapFound, .verified, .verifyFail, .polarityFlip, .camPhase, .gapMisplaced, .toothOverrun, .camFault, .stall,
      .commit].map SyncCause.code = [0, 1, 2, 3, 4, 5, 6, 7, 8, 9, 10] ∧
    [CapOutcome.ready, .expired, .cancelled, .truncated].map CapOutcome.code = [0, 1, 2, 3] ∧
    [Gain.g1, .g2, .g4, .g8, .g16, .g32].map Gain.code = [0, 1, 2, 3, 4, 5])

/-- R149: an accepted SUBSCRIBE replaces the port's subscription, format and watermark, the watermark held to 128, keeps the records
held and answers the watermark and their number. A mask with one of bits 10 to 15 set or a format above 1 is answered BAD_VALUE and
changes nothing. -/
def Obligations.Subscribe : Prop :=
  ∀ (t : Stamp) (p : Port) (hi lo f w : Byte) (s : State), s.ready p →
    let mask := hi.toNat * 256 + lo.toNat
    (mask < 1024 → f.toNat ≤ 1 →
      ∃ u : State, exec (.subscribe t p [hi, lo, f, w]) s = .next u ∧
        u = { s with
              timebase := t
              ports := s.ports.set p
                { s.ports.get p with
                  selection := .idle, dataOut := none, busy := true, busySince := t
                  subscription := BitVec.ofNat 10 mask
                  format := if f.toNat = 0 then .compact else .full
                  watermark := min 128 w.toNat
                  buffer := some ⟨.ok, [BitVec.ofNat 8 (min 128 w.toNat), BitVec.ofNat 8 (s.ports.get p).queue.length]⟩ } }) ∧
    (1024 ≤ mask ∨ 1 < f.toNat → exec (.subscribe t p [hi, lo, f, w]) s = .next (s.answered p t ⟨.badValue, []⟩))

/-- R150: FETCH_RECORDS takes min(n, records held, per-frame maximum) records from the oldest end, the maximum being 10 in FULL and 20
in COMPACT, and answers them in the port's format behind the format, their number, the number left and the dropped count. An n of 0 is
answered BAD_VALUE and an empty queue EMPTY. Nothing else changes. -/
def Obligations.FetchRecords : Prop :=
  ∀ (t : Stamp) (p : Port) (n : Byte) (s : State), s.ready p →
    let x := s.ports.get p
    (n.toNat = 0 → exec (.fetchRecords t p [n]) s = .next (s.answered p t ⟨.badValue, []⟩)) ∧
    (n.toNat ≠ 0 → x.queue = [] → exec (.fetchRecords t p [n]) s = .next (s.answered p t ⟨.empty, []⟩)) ∧
    (n.toNat ≠ 0 → x.queue ≠ [] →
      ∃ (taken left : List Record), taken ++ left = x.queue ∧
        taken.length = min n.toNat (min x.queue.length (if x.format = .full then 10 else 20)) ∧
        exec (.fetchRecords t p [n]) s = .next
          { s with
            timebase := t
            ports := s.ports.set p
              { x with
                selection := .idle, dataOut := none, busy := true, busySince := t, queue := left
                buffer := some ⟨.ok,
                  [BitVec.ofNat 8 (if x.format = .full then 1 else 0), BitVec.ofNat 8 taken.length,
                   BitVec.ofNat 8 left.length, BitVec.ofNat 8 (x.dropped / 256), BitVec.ofNat 8 x.dropped] ++
                  (taken.map (Record.bytes · x.format)).flatten⟩ } })

/-- R151: an accepted CLEAR_QUEUE notes the records held and the dropped count and answers them, empties the queue, clears the dropped
count and the QUEUE_OVERFLOW alert and sets the subscription to no kind; format, watermark, alert mask and the other alerts keep their
values, and no other port and no block changes. A payload is answered BAD_LENGTH. A record emitted afterwards is not queued. -/
def Obligations.ClearQueue : Prop :=
  ∀ (t : Stamp) (p : Port) (s : State), s.ready p →
    let x := s.ports.get p
    let y : PortState :=
      { x with
        selection := .idle, dataOut := none, busy := true, busySince := t
        queue := [], dropped := 0, subscription := 0, alerts := x.alerts &&& 30#5
        buffer := some ⟨.ok, [BitVec.ofNat 8 x.queue.length, BitVec.ofNat 8 (x.dropped / 256), BitVec.ofNat 8 x.dropped]⟩ }
    exec (.clearQueue t p []) s = .next { s with timebase := t, ports := s.ports.set p y } ∧
    (∀ r : Record, offered r y = y) ∧
    (∀ pl : List Byte, pl ≠ [] → pl.length ≤ 250 →
      exec (.clearQueue t p pl) s = .next (s.answered p t ⟨.badLength, []⟩))

/-- R188: SET_ALERT_MASK replaces the port's alert mask whole and answers the alert flags; CLEAR_ALERTS clears each flag whose bit is 1,
leaves the others and the dropped count, and answers the flags before and after. Attention follows from the new mask and flags. A byte
with one of bits 5 to 7 set is answered BAD_VALUE, another length BAD_LENGTH. Both act on their own port alone, with a commit pending
or not. -/
def Obligations.AlertCommands : Prop :=
  ∀ (t : Stamp) (p : Port) (s : State), s.ready p →
    let x := s.ports.get p
    let link : PortState → Response → State := fun y r =>
      { s with timebase := t
               ports := s.ports.set p { y with selection := .idle, dataOut := none, busy := true, busySince := t,
                                               buffer := some r } }
    (∀ m : Byte, m.toNat < 32 →
      exec (.setAlertMask t p [m]) s = .next
        (link { x with alertMask := m.setWidth 5 } ⟨.ok, [x.alerts.setWidth 8]⟩)) ∧
    (∀ m : Byte, m.toNat < 32 →
      exec (.clearAlerts t p [m]) s = .next
        (link { x with alerts := x.alerts &&& ~~~(m.setWidth 5) }
          ⟨.ok, [x.alerts.setWidth 8, (x.alerts &&& ~~~(m.setWidth 5)).setWidth 8]⟩)) ∧
    (∀ m : Byte, 32 ≤ m.toNat →
      exec (.setAlertMask t p [m]) s = .next (s.answered p t ⟨.badValue, []⟩) ∧
      exec (.clearAlerts t p [m]) s = .next (s.answered p t ⟨.badValue, []⟩)) ∧
    (∀ pl : List Byte, pl.length ≠ 1 → pl.length ≤ 250 →
      exec (.setAlertMask t p pl) s = .next (s.answered p t ⟨.badLength, []⟩) ∧
      exec (.clearAlerts t p pl) s = .next (s.answered p t ⟨.badLength, []⟩)) ∧
    (∀ y : PortState, y.attention = true ↔
      (0 < y.watermark ∧ y.watermark ≤ y.queue.length) ∨ ∃ i : Nat, i < 5 ∧ y.alerts.getLsbD i = true ∧ y.alertMask.getLsbD i = true)

/-- R154, R153: attention is asserted exactly while the watermark is above 0 and the queue holds at least that many records, or some
alert flag is set whose mask bit is set; the output is at "L" while it is asserted and at "H" otherwise. It follows the port's state
at each change: a flag whose mask bit is clear does not assert it, and asserts it once the mask selects it. SET_ALERT_MASK writes the
mask. -/
def Obligations.Attention : Prop :=
  (∀ x : PortState, x.attentionOut = false ↔
    (0 < x.watermark ∧ x.watermark ≤ x.queue.length) ∨ ∃ i : Nat, i < 5 ∧ x.alerts.getLsbD i = true ∧ x.alertMask.getLsbD i = true) ∧
  (∀ x : PortState, x.watermark = 0 → x.alertMask = 0 → x.attentionOut = true) ∧
  (∀ (x : PortState) (i : Nat), i < 5 → x.alerts.getLsbD i = true →
    { x with alertMask := x.alertMask ||| BitVec.ofNat 5 (2 ^ i) }.attentionOut = false) ∧
  (∀ (t : Stamp) (p : Port) (m : Byte) (s : State), s.ready p → m.toNat < 32 →
    ∃ u : State, exec (.setAlertMask t p [m]) s = .next u ∧ (u.ports.get p).alertMask = m.setWidth 5)

/-- R189, R174, R48, R155, R162: PORT_RESET empties the port's queue, clears its dropped count, subscription, alerts and alert mask,
removes its capture requests and frees the memory it owns, empties its declaration slot with the merged state formed anew, and answers
the records discarded, the dropped count and the requests removed. Format, watermark, the other ports' requests, handles and next-handle
number, images and pending commit, retards and published entries are untouched. When the port does not own the unit, so is everything
else: the unit, and the other ports whole. When it owns it, the memory is freed and a grant follows by R162, with no record of the
capture that ends. That the freed unit keeps its recorded count until the next grant is DEDUCED (assumption log 13). -/
def Obligations.PortReset : Prop :=
  ∀ (t : Stamp) (p : Port) (s : State), s.ready p →
    let x := s.ports.get p
    let answer : Response :=
      ⟨.ok, [BitVec.ofNat 8 x.queue.length, BitVec.ofNat 8 (x.dropped / 256), BitVec.ofNat 8 x.dropped,
        BitVec.ofNat 8 (s.cap.requests.filter fun r => decide (r.port = p)).length]⟩
    let y : PortState :=
      { x with
        queue := [], dropped := 0, subscription := 0, alerts := 0, alertMask := 0
        selection := .idle, dataOut := none, busy := true, busySince := t }
    let others := s.cap.requests.filter fun r => decide (r.port ≠ p)
    let ops := Ops.merge { s.ops with decl := s.ops.decl.set p none } s.cfg.active
    let gone : Cap → State := fun c => { s with timebase := t, ports := s.ports.set p y, ops := ops, cap := c }
    (∃ u : State, exec (.portReset t p []) s = .next u ∧
      u.ports.get p = { y with buffer := some answer } ∧
      u = { s with timebase := t, ops := ops, cap := u.cap, ports := u.ports } ∧
      u.cap.nextHandle = s.cap.nextHandle ∧
      (u.cap.requests.map fun r => { r with state := ReqState.waiting }) = others.map fun r => { r with state := ReqState.waiting }) ∧
    (CaptureAgrees s → s.cap.owner ≠ some p →
      exec (.portReset t p []) s = .next ((gone { s.cap with requests := others }).withResponse p answer)) ∧
    (CaptureAgrees s → s.cap.owner = some p →
      ∃ u : State,
        GrantMade t
          (gone { s.cap with unit := .free, active := none, mem := ⟨[]⟩, started := false, window := none, requests := others }) u ∧
        exec (.portReset t p []) s = .next (u.withResponse p answer))

/-! ### The capture unit -/

/-- R158, R159, R160, R162, R165, R166: CAPTURE_REQUEST. A field out of range, an empty condition set or IMMEDIATE with another condition
is answered BAD_VALUE; a list of 6 requests, or of 2 of this port, LIMIT; neither changes anything. An accepted request enters the list
at the newest end with the first handle from the next-handle number on, 255 followed by 1, that no request of the list holds, and the
number after it becomes the next-handle number. Its count is held to the kind's maximum. With a condition still open it is WAITING; with
IMMEDIATE, or FULL_SYNC alone in FULL_SYNC, it is TRIGGERED while the unit is in use, and granted at once when it is FREE: the unit is
FILLING with nothing recorded. A KNOCK_RAW request of a target outside the run list, granted, is held at once with no words, and its
port has the CAPTURE record TRUNCATED and the CAPTURE alert. Each answers the handle, the count and the state. -/
def Obligations.CaptureRequest : Prop :=
  ∀ (t : Stamp) (p : Port) (k target n named m : Byte) (s : State), s.ready p →
    let tooth := decide (k.toNat = 1)
    let bad := 1 < k.toNat ∨ 1 < m.toNat ∨ (k.toNat = 0 ∧ target.toNat = 0) ∨ 6 < target.toNat ∨ n.toNat = 0 ∨ named = 0 ∨
      (named.getLsbD 0 = true ∧ named ≠ 1#8)
    let full := 6 ≤ s.cap.requests.length ∨ 2 ≤ (s.cap.requests.filter fun r => decide (r.port = p)).length
    let count := min (if tooth then 32 else 16) n.toNat
    let now := named = 1#8 ∨ (named = 2#8 ∧ s.adec.sync = .fullSync)
    let runs := ∃ c : Cyl, cylNumber c = target.toNat ∧ s.cfg.active.hasCyl c = true
    let cmd := Instr.captureRequest t p [k, target, n, named, m]
    (bad → exec cmd s = .next (s.answered p t ⟨.badValue, []⟩)) ∧
    (¬ bad → full → exec cmd s = .next (s.answered p t ⟨.limit, []⟩)) ∧
    (¬ bad → ¬ full →
      ∃ (u : State) (payload : List Byte), exec cmd s = .next u ∧ (u.ports.get p).buffer = some ⟨.ok, payload⟩ ∧
        u.cap.requests.length = s.cap.requests.length + 1) ∧
    (¬ bad → ¬ full → CaptureAgrees s →
      let numbered : Nat → Nat := fun i => (s.cap.nextHandle - 1 + i) % 255 + 1
      ∃ (i h : Nat) (r : Request), i ≤ 6 ∧ h = numbered i ∧ (∀ q ∈ s.cap.requests, q.handle ≠ h) ∧
        (∀ j, j < i → ∃ q ∈ s.cap.requests, q.handle = numbered j) ∧
        r.handle = h ∧ r.port = p ∧ r.kind = (if tooth then .tooth else .knockRaw) ∧ r.target.elim 0 cylNumber = target.toNat ∧
        r.count = count ∧ r.named = named ∧ r.mode = (if m.toNat = 1 then .repeating else .once) ∧
        let placed : Cap :=
          { s.cap with requests := s.cap.requests ++ [r], nextHandle := if h = 255 then 1 else h + 1 }
        let granted : Cap :=
          { placed with unit := .filling, active := some h, mem := ⟨[]⟩, recorded := 0, started := false, window := none }
        (¬ now →
          r.state = .waiting ∧ r.latched = (if s.adec.sync = .fullSync then named &&& 2#8 else 0) ∧
          exec cmd s = .next
            { s.answered p t ⟨.ok, [BitVec.ofNat 8 h, BitVec.ofNat 8 count, 0]⟩ with cap := placed }) ∧
        (now → s.cap.unit ≠ .free → r.state = .triggered ∧ r.latched = named ∧
          exec cmd s = .next
            { s.answered p t ⟨.ok, [BitVec.ofNat 8 h, BitVec.ofNat 8 count, 1]⟩ with cap := placed }) ∧
        (now → s.cap.unit = .free → tooth = true ∨ runs →
          r.state = .active ∧ r.latched = named ∧
          exec cmd s = .next
            { s.answered p t ⟨.ok, [BitVec.ofNat 8 h, BitVec.ofNat 8 count, 2]⟩ with cap := granted }) ∧
        (now → s.cap.unit = .free → tooth = false → ¬ runs →
          r.state = .active ∧ r.latched = named ∧
          exec cmd s = .next
            (State.withResponse
              { s.taken p t with
                cap := { granted with unit := .held, holdStart := t, holdTicks := s.cfg.active.holdMs * 2000 }
                ports := (s.taken p t).ports.set p
                  (captureEnded t s.adec.cycle r .truncated 0 ((s.taken p t).ports.get p)) }
              p ⟨.ok, [BitVec.ofNat 8 h, BitVec.ofNat 8 count, 2]⟩)))

/-- R161, R160, R162: a MARK from port p latches MARK_p in every WAITING request that names it, and a request whose named conditions are
all latched becomes TRIGGERED; every other request stays as it is. It answers how many were latched and how many of them became
TRIGGERED. While the unit is not FREE, or when none became TRIGGERED, nothing else changes; otherwise one of them is granted and the
unit is no longer FREE: one of port A if it has any TRIGGERED, otherwise of port B, otherwise of port C, and the older in the list of
its port's. A request in which the mark was latched before counts as latched again (DEDUCED, assumption log 18), and requests of two
ports that become TRIGGERED at once are latched first and then granted by port (DESIGN CHOICE, log 22). R160: the entry to FULL_SYNC
latches FULL_SYNC in the same way, and a completed instance its KNOCK, MISFIRE and NOISE in the requests of its cylinder and in TOOTH
requests of no cylinder; a grant follows in the same way. -/
def Obligations.Mark : Prop :=
  (∀ (t : Stamp) (p : Port) (s : State), s.ready p → CaptureAgrees s →
    let bit : Byte := match p with | .a => 0x20 | .b => 0x40 | .c => 0x80
    let hit : Request → Bool := fun r => decide (r.state = .waiting) && decide (r.named &&& bit = bit)
    let after : Request → Request := fun r =>
      if hit r then
        { r with latched := r.latched ||| bit, state := if r.latched ||| bit = r.named then .triggered else .waiting }
      else r
    let answer : Response := ⟨.ok, [BitVec.ofNat 8 (s.cap.requests.filter hit).length,
      BitVec.ofNat 8 ((s.cap.requests.filter hit).filter fun r => decide ((after r).state = .triggered)).length]⟩
    (s.cap.unit ≠ .free ∨ (∀ r ∈ s.cap.requests, (after r).state ≠ .triggered) →
      exec (.mark t p []) s = .next { s.answered p t answer with cap := { s.cap with requests := s.cap.requests.map after } }) ∧
    (s.cap.unit = .free → (∃ r ∈ s.cap.requests, (after r).state = .triggered) →
      ∃ (u : State) (g : Request), exec (.mark t p []) s = .next u ∧
        u = { s with timebase := t, cap := u.cap, ports := u.ports } ∧ (u.ports.get p).buffer = some answer ∧
        g ∈ s.cap.requests ∧ (after g).state = .triggered ∧ u.cap.active = some g.handle ∧ u.cap.unit ≠ .free ∧
        u.cap.mem.words = [] ∧
        u.cap.requests = s.cap.requests.map fun r =>
          if r.handle = g.handle then { after r with state := .active } else after r) ∧
    ∃ u : State, GrantMade t { s.taken p t with cap := { s.cap with requests := s.cap.requests.map after } } u ∧
      exec (.mark t p []) s = .next (u.withResponse p answer)) ∧
  (∀ (t : Stamp) (s : State), (s.cap.requests.map (·.handle)).Nodup →
    let latched : (Request → Byte) → State := fun conds =>
      { s with cap := { s.cap with
                        requests := s.cap.requests.map fun r =>
                          if r.state = .waiting then
                            { r with latched := r.latched ||| (conds r &&& r.named)
                                     state := if r.latched ||| (conds r &&& r.named) = r.named then .triggered else .waiting }
                          else r } }
    GrantMade t (latched fun _ => 2#8) (s.noticeFullSync t) ∧
    ∀ (n : Cyl) (m : MisfireVerdict) (k : KnockVerdict),
      let met : Byte := (if k = .knock then 4#8 else 0) ||| (if m = .misfire then 8#8 else 0) ||| (if k = .noise then 16#8 else 0)
      GrantMade t (latched fun r => if r.target = some n ∨ (r.kind = .tooth ∧ r.target = none) then met else 0)
        (s.noticeCompletion t n m k))

/-- R168: CAPTURE_READ. A handle of 0 is answered BAD_VALUE, and one that names no request of the port, or a request that is not
ACTIVE with the unit HELD, NOT_ALLOWED; a word count of 0 or above 120 and a position at or above the words held BAD_VALUE. An accepted
read answers the handle, the words held, the position, r = min(count, words held − position) and those r words, and changes
nothing. -/
def Obligations.CaptureRead : Prop :=
  ∀ (t : Stamp) (p : Port) (h hi lo n : Byte) (s : State), s.ready p →
    let pos := hi.toNat * 256 + lo.toNat
    let held := s.cap.mem.words.length
    let own := s.cap.requests.find? fun r => decide (r.handle = h.toNat) && decide (r.port = p)
    let cmd := Instr.captureRead t p [h, hi, lo, n]
    (h.toNat = 0 → exec cmd s = .next (s.answered p t ⟨.badValue, []⟩)) ∧
    (h.toNat ≠ 0 → own = none → exec cmd s = .next (s.answered p t ⟨.notAllowed, []⟩)) ∧
    (∀ r : Request, h.toNat ≠ 0 → own = some r →
      (r.state ≠ .active ∨ s.cap.unit ≠ .held → exec cmd s = .next (s.answered p t ⟨.notAllowed, []⟩)) ∧
      (r.state = .active → s.cap.unit = .held →
        (n.toNat = 0 ∨ 120 < n.toNat ∨ held ≤ pos → exec cmd s = .next (s.answered p t ⟨.badValue, []⟩)) ∧
        (1 ≤ n.toNat → n.toNat ≤ 120 → pos < held →
          ∃ words : List Half, words.length = min n.toNat (held - pos) ∧
            (∀ i, i < words.length → words[i]? = s.cap.mem.words[pos + i]?) ∧
            exec cmd s = .next (s.answered p t ⟨.ok,
              [h, BitVec.ofNat 8 (held / 256), BitVec.ofNat 8 held, hi, lo, BitVec.ofNat 8 words.length] ++
                words.flatMap fun w => [w.extractLsb' 8 8, w.extractLsb' 0 8]⟩))))

/-- R168, R169, R162: CAPTURE_RELEASE. A handle of 0 is answered BAD_VALUE, a handle that names no request of the port NOT_ALLOWED, and
so is a request that is not ACTIVE with the unit HELD. An accepted release frees the memory; a ONCE request leaves the list (state 3),
and a REPEAT request returns to its place with its latches cleared and re-armed. With no other request TRIGGERED, a REPEAT request whose
conditions hold at once is granted again, and any other release leaves the unit FREE; otherwise a grant follows by R162. No record is
emitted, save by a grant that ends at once, and nothing else changes. That the freed unit keeps its recorded count until the next grant
is DEDUCED (assumption log 13). -/
def Obligations.CaptureRelease : Prop :=
  (∀ (t : Stamp) (p : Port) (h : Byte) (s : State), s.ready p →
    (h = 0 → exec (.captureRelease t p [h]) s = .next (s.answered p t ⟨.badValue, []⟩)) ∧
    (h ≠ 0 → (∀ q ∈ s.cap.requests, q.handle = h.toNat → q.port ≠ p) →
      exec (.captureRelease t p [h]) s = .next (s.answered p t ⟨.notAllowed, []⟩))) ∧
  (∀ (t : Stamp) (p : Port) (h : Byte) (r : Request) (s : State), s.ready p → CaptureAgrees s →
    r ∈ s.cap.requests → r.handle = h.toNat → r.port = p →
    let cmd := Instr.captureRelease t p [h]
    let now := r.named = 1#8 ∨ (r.named = 2#8 ∧ s.adec.sync = .fullSync)
    let freed : List Request → Cap := fun l =>
      { s.cap with unit := .free, active := none, mem := ⟨[]⟩, started := false, window := none, requests := l }
    (r.state ≠ .active ∨ s.cap.unit ≠ .held → exec cmd s = .next (s.answered p t ⟨.notAllowed, []⟩)) ∧
    (r.state = .active → s.cap.unit = .held → (∀ q ∈ s.cap.requests, q.state ≠ .triggered) →
      (r.mode = .once →
        exec cmd s = .next
          { s.answered p t ⟨.ok, [h, 3]⟩ with
            cap := freed (s.cap.requests.filter fun q => decide (q.handle ≠ r.handle)) }) ∧
      (r.mode = .repeating → r.named ≠ 0 → r.named.getLsbD 0 = false → ¬ now →
        exec cmd s = .next
          { s.answered p t ⟨.ok, [h, 0]⟩ with
            cap := freed (s.cap.requests.map fun q =>
              if q.handle = r.handle then
                { q with state := .waiting, latched := if s.adec.sync = .fullSync then q.named &&& 2#8 else 0 }
              else q) }) ∧
      (r.mode = .repeating → now → (r.kind = .tooth ∨ ∃ c, r.target = some c ∧ s.cfg.active.hasCyl c = true) →
        exec cmd s = .next
          { s.answered p t ⟨.ok, [h, 2]⟩ with
            cap := { s.cap with unit := .filling, active := some r.handle, mem := ⟨[]⟩, recorded := 0, started := false,
                                window := none } })) ∧
    (r.state = .active → s.cap.unit = .held →
      let arms : Byte := if s.adec.sync = .fullSync then 3#8 else 1#8
      let rest : List Request := match r.mode with
        | .once => s.cap.requests.filter fun q => decide (q.handle ≠ r.handle)
        | .repeating => s.cap.requests.map fun q =>
          if q.handle = r.handle then
            { q with latched := arms &&& q.named, state := if arms &&& q.named = q.named then .triggered else .waiting }
          else q
      ∃ (u : State) (code : Nat), GrantMade t { s.taken p t with cap := freed rest } u ∧
        exec cmd s = .next (u.withResponse p ⟨.ok, [h, BitVec.ofNat 8 code]⟩) ∧
        (r.mode = .once → code = 3) ∧
        (r.mode = .repeating → ∀ q ∈ u.cap.requests, q.handle = r.handle → code = q.state.code)))

/-- R168, R170, R171, R167, R162: a held capture's expiry and a cancel. A CAPTURE_CANCEL with handle 0 is answered BAD_VALUE, and one with
a handle that names no request of the port NOT_ALLOWED. Of a WAITING or TRIGGERED request it removes it with no record; of the ACTIVE
request it emits CANCELLED with the words held to the owner, sets its CAPTURE alert, frees the memory and removes the request, and
answers 2 for filling and 3 for held. When the hold timer has run out the expiry does the same with EXPIRED. With no request TRIGGERED,
nothing else changes; otherwise a grant follows. A CAPTURE_HOLD_EXPIRY commanded before its time only lets time pass (DEDUCED, assumption
log 14), and the freed unit keeps its recorded count until the next grant (DEDUCED, log 13). -/
def Obligations.CancelAndExpiry : Prop :=
  (∀ (t : Stamp) (p : Port) (h : Byte) (s : State), s.ready p →
    (h = 0 → exec (.captureCancel t p [h]) s = .next (s.answered p t ⟨.badValue, []⟩)) ∧
    (h ≠ 0 → (∀ q ∈ s.cap.requests, q.handle = h.toNat → q.port ≠ p) →
      exec (.captureCancel t p [h]) s = .next (s.answered p t ⟨.notAllowed, []⟩))) ∧
  (∀ (t : Stamp) (p : Port) (h : Byte) (r : Request) (s : State), CaptureAgrees s →
    r ∈ s.cap.requests → r.handle = h.toNat → r.port = p →
    let rest := s.cap.requests.filter fun q => decide (q.handle ≠ r.handle)
    let freed : Cap :=
      { s.cap with unit := .free, active := none, mem := ⟨[]⟩, started := false, window := none, requests := rest }
    let ended : CapOutcome → PortState → PortState := fun o x =>
      let y := offered ⟨if r.kind = .knockRaw then r.target else none, s.adec.cycle, t,
        .capture r.handle o r.kind s.cap.mem.words.length⟩ x
      { y with alerts := y.alerts ||| 4#5 }
    (s.ready p → r.state ≠ .active →
      exec (.captureCancel t p [h]) s = .next
        { s.answered p t ⟨.ok, [BitVec.ofNat 8 r.state.code]⟩ with cap := { s.cap with requests := rest } }) ∧
    (s.ready p → r.state = .active → (∀ q ∈ s.cap.requests, q.state ≠ .triggered) →
      exec (.captureCancel t p [h]) s = .next
        (State.withResponse { s.taken p t with cap := freed, ports := (s.taken p t).ports.set p (ended .cancelled ((s.taken p t).ports.get p)) }
          p ⟨.ok, [if s.cap.unit = .held then 3 else 2]⟩)) ∧
    (s.running = true → s.cap.unit = .held → s.cap.active = some r.handle → s.cap.holdTicks ≤ (t - s.cap.holdStart).toNat →
      (∀ q ∈ s.cap.requests, q.state ≠ .triggered) →
      exec (.captureHoldExpiry t) s = .next
        { s with timebase := t, cap := freed, ports := s.ports.set p (ended .expired (s.ports.get p)) }) ∧
    (s.running = true → s.cap.unit ≠ .held ∨ (t - s.cap.holdStart).toNat < s.cap.holdTicks →
      exec (.captureHoldExpiry t) s = .next { s with timebase := t }) ∧
    (s.ready p → r.state = .active →
      ∃ u : State,
        GrantMade t { s.taken p t with
                      cap := freed, ports := (s.taken p t).ports.set p (ended .cancelled ((s.taken p t).ports.get p)) } u ∧
        exec (.captureCancel t p [h]) s = .next (u.withResponse p ⟨.ok, [if s.cap.unit = .held then 3 else 2]⟩)) ∧
    (s.running = true → s.cap.unit = .held → s.cap.active = some r.handle → s.cap.holdTicks ≤ (t - s.cap.holdStart).toNat →
      ∃ u : State,
        GrantMade t { s with timebase := t, cap := freed, ports := s.ports.set p (ended .expired (s.ports.get p)) } u ∧
        exec (.captureHoldExpiry t) s = .next u))

/-! ### The configuration stage -/

/-- R38, R176, R177, R175: the staging writes. While a commit is pending each is answered NOT_ALLOWED; an item or a value out of its
range BAD_VALUE. An accepted write changes the named values of the staged image and no others, sets the dirty flag and records its port;
STAGE_GLOBAL answers the value, STAGE_ROWS and STAGE_TABLE the number of rows and entries written. The active image and everything
else stay. The staged range of each of the 33 items is that of the table of section 10.1. -/
def Obligations.Staging : Prop :=
  (∀ (t : Stamp) (p : Port) (s : State), s.ready p →
    let c := s.cfg
    let staged : Image → List Byte → State := fun img pl =>
      { s.answered p t ⟨.ok, pl⟩ with cfg := { c with staged := img, dirty := true, lastStaging := some p } }
    (c.pendingCommit.isSome → ∀ a b d e f g : Byte,
      exec (.stageGlobal t p [a, b, d, e, f]) s = .next (s.answered p t ⟨.notAllowed, []⟩) ∧
      exec (.stageRows t p [a, b, d, e, f]) s = .next (s.answered p t ⟨.notAllowed, []⟩) ∧
      exec (.stageTable t p [a, b, d, e, f, g]) s = .next (s.answered p t ⟨.notAllowed, []⟩)) ∧
    (c.pendingCommit = none →
      -- STAGE_GLOBAL
      (∀ k v3 v2 v1 v0 : Byte,
        let v := ((v3.toNat * 256 + v2.toNat) * 256 + v1.toNat) * 256 + v0.toNat
        (itemInRange k.toNat v = false →
          exec (.stageGlobal t p [k, v3, v2, v1, v0]) s = .next (s.answered p t ⟨.badValue, []⟩)) ∧
        (itemInRange k.toNat v = true →
          ∃ img : Image, exec (.stageGlobal t p [k, v3, v2, v1, v0]) s = .next (staged img [v3, v2, v1, v0]) ∧
            img = { c.staged with items := img.items } ∧
            ∀ i, 1 ≤ i → i ≤ 33 → img.item i = if i = k.toNat then v else c.staged.item i)) ∧
      -- STAGE_ROWS, every field of a row
      (∀ mhi mlo field vhi vlo : Byte,
        let mask := mhi.toNat * 256 + mlo.toNat
        let v := vhi.toNat * 256 + vlo.toNat
        let fits := (field = 0 ∧ 1 ≤ v ∧ v ≤ 6) ∨ (field = 1 ∧ v ≤ 1) ∨ (field = 2 ∧ v ≤ 2880) ∨
          (field = 3 ∧ 16 ≤ v ∧ v ≤ 2880) ∨ (field = 4 ∧ v ≤ 5760) ∨ (field = 5 ∧ (v = 0 ∨ (16 ≤ v ∧ v ≤ 2880))) ∨
          (field = 6 ∧ v ∈ [1, 2, 4, 8, 16, 32]) ∨ (field = 7 ∧ v ≤ 1)
        (mask = 0 ∨ 4096 ≤ mask ∨ ¬ fits →
          exec (.stageRows t p [mhi, mlo, field, vhi, vlo]) s = .next (s.answered p t ⟨.badValue, []⟩)) ∧
        (mask ≠ 0 → mask < 4096 → fits →
          ∃ img : Image,
            exec (.stageRows t p [mhi, mlo, field, vhi, vlo]) s = .next
              (staged img [BitVec.ofNat 8 ((List.range 12).filter fun r => mask.testBit r).length]) ∧
            img = { c.staged with rows := img.rows } ∧
            ∀ r, r < 12 →
              let x := c.staged.row r
              let y := img.row r
              (mask.testBit r = false → y = x) ∧
              (mask.testBit r = true →
                (field = 0 → y = { x with cyl := y.cyl } ∧ cylNumber y.cyl = v) ∧
                (field = 1 → y = { x with sensor := y.sensor } ∧ y.sensor.number = v) ∧
                (field = 2 → y = { x with knockStart := v }) ∧ (field = 3 → y = { x with knockLen := v }) ∧
                (field = 4 → y = { x with guardStart := v }) ∧ (field = 5 → y = { x with guardLen := v }) ∧
                (field = 6 → y = { x with initGain := y.initGain } ∧ y.initGain.value = v) ∧
                (field = 7 → y = { x with autoRange := decide (v = 1) })))) ∧
      -- STAGE_TABLE
      (∀ table shi slo load vhi vlo : Byte,
        let speed := shi.toNat * 256 + slo.toNat
        let v := vhi.toNat * 256 + vlo.toNat
        let misfire := table.toNat ≤ 1 ∧ load ≠ 0 ∧ load.toNat ≤ 15 ∧ 1 ≤ v ∧ v ≤ 32767
        let knock := 2 ≤ table.toNat ∧ table.toNat ≤ 3 ∧ load = 0 ∧ 256 ≤ v ∧ v ≤ 16383
        (speed = 0 ∨ ¬ (misfire ∨ knock) →
          exec (.stageTable t p [table, shi, slo, load, vhi, vlo]) s = .next (s.answered p t ⟨.badValue, []⟩)) ∧
        (speed ≠ 0 → misfire →
          ∃ (img : Image) (set : ThrSet), set.code = table.toNat ∧
            exec (.stageTable t p [table, shi, slo, load, vhi, vlo]) s = .next
              (staged img [BitVec.ofNat 8 (((List.range 16).filter fun b => speed.testBit b).length *
                ((List.range 4).filter fun l => load.toNat.testBit l).length)]) ∧
            img.rows = c.staged.rows ∧ img.items = c.staged.items ∧ img.knockA = c.staged.knockA ∧ img.knockB = c.staged.knockB ∧
            (∀ other : ThrSet, other ≠ set → img.misfireTable other = c.staged.misfireTable other) ∧
            ∀ b l, b < 16 → l < 4 →
              vget 0 (img.misfireTable set) (4 * b + l) =
                if speed.testBit b ∧ load.toNat.testBit l then v else vget 0 (c.staged.misfireTable set) (4 * b + l)) ∧
        (speed ≠ 0 → knock →
          ∃ (img : Image) (set : ThrSet), set.code + 2 = table.toNat ∧
            exec (.stageTable t p [table, shi, slo, load, vhi, vlo]) s = .next
              (staged img [BitVec.ofNat 8 ((List.range 16).filter fun b => speed.testBit b).length]) ∧
            img.rows = c.staged.rows ∧ img.items = c.staged.items ∧ img.misfireA = c.staged.misfireA ∧
            img.misfireB = c.staged.misfireB ∧
            (∀ other : ThrSet, other ≠ set → img.knockTable other = c.staged.knockTable other) ∧
            ∀ b, b < 16 →
              vget 0 (img.knockTable set) b = if speed.testBit b then v else vget 0 (c.staged.knockTable set) b)))) ∧
  (∀ k v : Nat,
    let ranges : List (Nat × Nat × Nat) :=
      [(2, 1, 2), (3, 0, 2), (4, 0, 5759), (5, 10, 500), (6, 0, 3), (7, 0, 11519), (8, 0, 11519), (9, 0, 11), (10, 0, 11),
       (11, 0, 63), (12, 0, 1), (13, 0, 1), (14, 100, 5000), (15, 0, 255), (16, 0, 1920), (17, 300, 2000), (18, 0, 63),
       (19, 0, 32767), (20, 50, 1000), (21, 1, 1000), (22, 1, 15), (23, 0, 31), (24, 0, 31), (25, 2, 7), (26, 256, 2097120),
       (27, 1, 65535), (28, 256, 16383), (29, 0, 80), (30, 1, 16), (31, 1, 255), (32, 1, 8), (33, 100, 10000)]
    itemInRange k v = true ↔
      (k = 1 ∧ v ∈ [12, 15, 16, 18, 20, 24, 30, 32, 36, 40, 45, 48, 60]) ∨
        ∃ lo hi : Nat, (k, lo, hi) ∈ ranges ∧ lo ≤ v ∧ v ≤ hi)

/-- R179: an accepted DISCARD cancels a pending commit, copies the whole active image into the staged image, clears the dirty flag and
sets the last staging port to none; it answers 1 when a commit was cancelled and 0 otherwise. No record is emitted, no alert set, and
the generation and everything else stay. A payload is answered BAD_LENGTH. An apply taken first leaves nothing pending, and DISCARD then
answers 0. -/
def Obligations.Discard : Prop :=
  ∀ (t : Stamp) (p : Port) (s : State), s.ready p →
    (∀ pl : List Byte, pl ≠ [] → pl.length ≤ 250 →
      exec (.discard t p pl) s = .next (s.answered p t ⟨.badLength, []⟩)) ∧
    exec (.discard t p []) s = .next
      { s.answered p t ⟨.ok, [if s.cfg.pendingCommit = none then 0 else 1]⟩ with
        cfg := { s.cfg with staged := s.cfg.active, dirty := false, lastStaging := none, pendingCommit := none } } ∧
    s.cfg.apply.pendingCommit = none ∧ s.cfg.apply.staged = s.cfg.apply.active

/-- R180 to R183: COMMIT. A timing above 1 is answered BAD_VALUE, a pending commit BUSY, a failed check BAD_CONFIG with its code and row;
none changes anything. A commit of timing AT_CYCLE in FULL_SYNC waits, with its class and port. Any other is applied at once: the active
image becomes the staged one, the generation increments, the staging state clears, and every block takes its effects (`Applied`), ending
with one CONFIG record and CONFIG_APPLIED on every port. When the images are equal the class is CALIBRATION and no block changes. A
pending commit applies at the next cycle boundary, behind the boundary's work and before the angle events of its tooth, which after a
LAYOUT apply count as passed; or at the sync loss that comes first, behind its loss events. The eight checks, in their order, are those
of R36, R37, R59 and CAM_SPAN. The model's own: the order of the blocks at an apply and at a boundary, "at or above" for a lowered stall
timeout, and SEEK before HALTED at a GEOMETRY apply that meets it (all assumption log 9), the SYNC record before the CAPTURE record at a
loss (log 19), an abandoned window before the event that ends its capture (log 24), the tooth index 0 in SEEK and no last edge in HALTED
(DEDUCED, log 15), the segment boundaries of a new offset that the boundary tooth does not raise (DEDUCED, log 23), and the row that
CYLINDER_REPEAT names (DEDUCED, log 12). -/
def Obligations.Commit : Prop :=
  (∀ (t : Stamp) (p : Port) (b : Byte) (s : State), s.ready p →
    let c := s.cfg
    let cls := commitClass c.active c.staged
    let cmd := Instr.commit t p [b]
    let atCycle := b.toNat = 1 ∧ s.adec.sync = .fullSync
    let gen := c.generation + 1
    let answer : Nat → BitVec 32 → Response := fun outcome g =>
      ⟨.ok, [BitVec.ofNat 8 cls.code, BitVec.ofNat 8 outcome, g.extractLsb' 24 8, g.extractLsb' 16 8, g.extractLsb' 8 8,
             g.extractLsb' 0 8]⟩
    (1 < b.toNat → exec cmd s = .next (s.answered p t ⟨.badValue, []⟩)) ∧
    (b.toNat ≤ 1 → c.pendingCommit.isSome → exec cmd s = .next (s.answered p t ⟨.busy, []⟩)) ∧
    (∀ code row : Nat, b.toNat ≤ 1 → c.pendingCommit = none → failedCheck c.staged = some (code, row) →
      exec cmd s = .next (s.answered p t ⟨.badConfig, [BitVec.ofNat 8 code, BitVec.ofNat 8 row]⟩)) ∧
    (b.toNat ≤ 1 → c.pendingCommit = none → failedCheck c.staged = none →
      (atCycle → exec cmd s = .next
        { s.answered p t (answer 1 c.generation) with cfg := { c with pendingCommit := some ⟨.atCycle, cls, p⟩ } }) ∧
      (¬ atCycle → ∃ u : State, exec cmd s = .next u ∧
        u.cfg = ⟨c.staged, c.staged, gen, false, none, none⟩ ∧ (u.ports.get p).buffer = some (answer 0 gen)) ∧
      (¬ atCycle → ∃ u : State, Applied t cls p (s.taken p t) u ∧ exec cmd s = .next (u.withResponse p (answer 0 gen))) ∧
      (¬ atCycle → c.staged = c.active →
        let rec1 : Record := ⟨none, s.adec.cycle, t, .config gen p .calibration⟩
        exec cmd s = .next
          (State.withResponse
            { s.taken p t with
              cfg := ⟨c.active, c.active, gen, false, none, none⟩
              ports := (s.taken p t).ports.map fun x => { offered rec1 x with alerts := (offered rec1 x).alerts ||| 8#5 } }
            p (answer 0 gen)))) ∧
    (∀ img : Image, commitClass img img = .calibration) ∧
    (∀ a g : Image, (∃ k ∈ [1, 2, 3, 4, 6, 7, 8], g.item k ≠ a.item k) ∨ g.slots ≠ a.slots → commitClass a g = .geometry) ∧
    (∀ a g : Image, (∀ k ∈ [1, 2, 3, 4, 6, 7, 8], g.item k = a.item k) → g.slots = a.slots →
      (g.runStart ≠ a.runStart ∨ g.runEnd ≠ a.runEnd ∨
        ∃ r, r < 12 ∧ (g.inRun r = true ∨ a.inRun r = true) ∧ g.row r ≠ a.row r) → commitClass a g = .layout) ∧
    (∀ a g : Image, (∀ k ∈ [1, 2, 3, 4, 6, 7, 8], g.item k = a.item k) → g.slots = a.slots →
      g.runStart = a.runStart → g.runEnd = a.runEnd →
      (∀ r, r < 12 → (g.inRun r = true ∨ a.inRun r = true) → g.row r = a.row r) → commitClass a g = .calibration)) ∧
  -- a pending commit at a cycle boundary
  (∀ (t : Stamp) (k : PendingCommit) (a : Adec) (s : State), s.running = true → s.adec.sync = .fullSync →
    s.cfg.pendingCommit = some k → KeepsCrankSync s t a → a.toothAngle < s.adec.toothAngle →
    (s.adec.inWindow = true ∨ s.adec.camFaults < 2) →
    let v := afterBoundary (s.edgeTaken t a) t a
    let cmd := Instr.crankEdge t s.toothEdge
    ∃ u : State, Applied t k.cls k.port v u ∧
      (k.cls ≠ .calibration ∨ StallPassed t v → exec cmd s = .next u) ∧
      (k.cls = .calibration → ¬ StallPassed t v →
        let due : Nat → Nat → List LayoutEvent := fun lo hi =>
          (s.cfg.staged.eventsBetween lo hi).filter fun e =>
            decide (s.cfg.active.segOffset = s.cfg.staged.segOffset ∨ e.kind ≠ .segment)
        exec cmd s = .next
          ((due 0 a.toothAngle).foldl (State.raise t (s.adec.cycle + 1))
            ((due s.adec.nextAngle 11519).foldl (State.raise t s.adec.cycle)
              { u with adec := { u.adec with nextAngle := a.toothAngle + 1 } })))) ∧
  -- a pending commit at a sync loss
  (∀ (t : Stamp) (cmd : Instr) (k : PendingCommit) (a : Adec) (cause : SyncCause) (s v : State), s.running = true →
    s.adec.sync = .fullSync → s.cfg.pendingCommit = some k →
    let img := s.cfg.active
    ((cmd = .stall t ∧ img.stallMs * 2000 ≤ (t - s.adec.stallRef).toNat ∧ cause = .stall ∧ v = s ∧
        a = { s.adec with
              sync := .halted, period := 0, prevPeriod := 0, toothPeriod := 0, trev := 0, toothIndex := 0,
              lastEdge := none, verifyFails := 0, camFaults := 0, inWindow := false,
              polarity := if img.polMode = 2 then s.adec.lastGood else s.adec.polarity }) ∨
      (∃ e : Edge, cmd = .camEdge t e ∧ CamCounts img e ∧ img.camLo < 11520 ∧ img.camHi < 11520 ∧
        ¬ InWindow img.camLo img.camHi (s.adec.cycleAngle img t) ∧ img.camEdge ≠ 2 ∧ 2 ≤ s.adec.camFaults ∧
        cause = .camFault ∧ v = s ∧ a = s.adec.dropped) ∨
      (∃ b : Adec, cmd = .crankEdge t s.toothEdge ∧ KeepsCrankSync s t b ∧ b.toothAngle < s.adec.toothAngle ∧
        s.adec.inWindow = false ∧ 2 ≤ s.adec.camFaults ∧ cause = .camFault ∧ v = s.edgeTaken t b ∧ a = b.dropped) ∨
      (∃ e : Stamp, cmd = .crankEdge t s.toothEdge ∧ s.adec.lastEdge = some e ∧ s.adec.toothPeriod ≤ 4 * (t - e).toNat ∧
        ((GapPeriod img.missing s.adec.period (t - e).toNat ∧ s.adec.toothIndex + 1 + img.missing < img.nPos ∧
            cause = .gapMisplaced) ∨
          (¬ GapPeriod img.missing s.adec.period (t - e).toNat ∧ img.nPos ≤ s.adec.toothIndex + 1 + img.missing ∧
            cause = .toothOverrun)) ∧
        v = s.toothTaken t (t - e).toNat false ∧
        a = { s.adec.seeking (some t) 1 with
              stallRef := t, syncLossTotal := min 65535 (s.adec.syncLossTotal + 1) })) →
    ∃ u : State, exec cmd s = .next u ∧
      Applied t k.cls k.port
        (State.lossEvents
          { v with timebase := t, adec := a
                   ports := syncPorts v.ports (syncRecord t s.adec.cycle a.sync cause a.polarity) } t .fullSync) u) ∧
  -- the checks of the staged image
  (∀ img : Image,
    let n := img.runEnd + 1 - img.runStart
    let L := 11520 / n
    let run : Nat → Prop := fun r => r < 12 ∧ img.runStart ≤ r ∧ r ≤ img.runEnd
    let tdc : Nat → Nat := fun r => (r - img.runStart) * L
    let common : Nat → Nat → Nat → Nat → Prop := fun a la b lb =>
      ∃ x : Nat, x < 11520 ∧ ((x : Int) - a) % 11520 < la ∧ ((x : Int) - b) % 11520 < lb
    let slotCount := img.runEnd < img.runStart ∨ n < 3 ∨ 6 < n
    let wheelDivision := 2 * img.nPos % n ≠ 0
    let cylinderRepeat : Nat → Prop := fun r => run r ∧ ∃ q, q < r ∧ run q ∧ (img.row q).cyl = (img.row r).cyl
    let segmentOffset := L / 2 < img.segOffset
    let boundaryOnGap : Nat → Prop := fun r => img.runStart ≤ r ∧ r < img.runStart + n ∧
      ((img.nPos - img.missing : Nat) : Int) ≤
        (img.boundary (r - img.runStart) - img.refOffset) % 5760 / (img.toothAngle : Int)
    let windowLate : Nat → Prop := fun r => run r ∧
      (2 * L < (img.row r).knockStart + (img.row r).knockLen ∨
        ((img.row r).guardLen ≠ 0 ∧ 2 * L < (img.row r).guardStart + (img.row r).guardLen))
    let windowOverlap : Nat → Prop := fun q => run q ∧ ∃ r, q < r ∧ run r ∧ (img.row q).sensor = (img.row r).sensor ∧
      (common (tdc q + (img.row q).knockStart) (img.row q).knockLen (tdc r + (img.row r).knockStart) (img.row r).knockLen ∨
        common (tdc q + (img.row q).guardStart) (img.row q).guardLen (tdc r + (img.row r).guardStart) (img.row r).guardLen)
    let camSpan := (5760 : Int) ≤ ((img.camHi : Int) - img.camLo) % 11520
    let lowest : (Nat → Prop) → Nat → Prop := fun f r => f r ∧ ∀ q, q < r → ¬ f q
    let never : (Nat → Prop) → Prop := fun f => ∀ r, ¬ f r
    (slotCount → failedCheck img = some (1, 255)) ∧
    (¬ slotCount → (wheelDivision → failedCheck img = some (2, 255)) ∧
      (¬ wheelDivision → (∀ r, lowest cylinderRepeat r → failedCheck img = some (3, r)) ∧
        (never cylinderRepeat → (segmentOffset → failedCheck img = some (4, 255)) ∧
          (¬ segmentOffset → (∀ r, lowest boundaryOnGap r → failedCheck img = some (5, r)) ∧
            (never boundaryOnGap → (∀ r, lowest windowLate r → failedCheck img = some (6, r)) ∧
              (never windowLate → (∀ r, lowest windowOverlap r → failedCheck img = some (7, r)) ∧
                (never windowOverlap → (camSpan → failedCheck img = some (8, 255)) ∧
                  (¬ camSpan → failedCheck img = none)))))))))

/-! ### Headline results -/

/-- Decode and encode agree: for every well-formed request, the bytes of its frame (section 11.1, command codes of section 11.5) are
taken by the port as that very request with its whole payload; a request that fails a frame test is taken as BAD_FRAME, and an unknown
code as UNKNOWN_COMMAND (R185). -/
def Obligations.RequestFramesDecode : Prop :=
  ∀ (c : Instr) (t : Stamp) (p : Port) (bytes : List Byte), wellFormed c = true → requestFrame c = some (t, p, bytes) →
    requestCommand t p bytes = c

/-- R146: every step keeps every record queue at no more than 128 records. -/
def Obligations.QueuesFitKept : Prop :=
  ∀ s u : State, QueuesFit s → step s = .next u → QueuesFit u

/-- R156, R157, R159, R162: every step keeps the capture unit and its request list in agreement: the memory's canonical form, the
limits of 6 and 2 requests, distinct handles, latches among the named conditions, one ACTIVE request exactly when the unit is not
FREE, and no TRIGGERED request while it is FREE. -/
def Obligations.CaptureAgreesKept : Prop :=
  ∀ s u : State, CaptureAgrees s → step s = .next u → CaptureAgrees u

/-- R181, R183, R2: every step keeps a pending commit in FULL_SYNC, with timing AT_CYCLE, with every check passed and with the class that
describes the difference of the images; and keeps the polarity in use equal to a mode NORMAL or INVERTED. -/
def Obligations.CommitAgreesKept : Prop :=
  ∀ s u : State, CommitAgrees s → step s = .next u → CommitAgrees u

/-- R175, R176, R180: every step keeps every value of both images in its staged range, and the active image passing every commit check. -/
def Obligations.ImagesAgreeKept : Prop :=
  ∀ s u : State, ImagesAgree s → step s = .next u → ImagesAgree u

/-- R105: every step keeps every knock reference and guard reference between the active reference floor and 2,097,120, and every
retard between 0 and the active retard maximum. -/
def Obligations.KnockStateFitsKept : Prop :=
  ∀ s u : State, KnockStateFits s → step s = .next u → KnockStateFits u

/-- R97: every step keeps the gain in use equal to the initial gain in every row whose auto-range is off. -/
def Obligations.GainsAgreeKept : Prop :=
  ∀ s u : State, GainsAgree s → step s = .next u → GainsAgree u

/-- R30, R31, R32, R34: every step keeps the cursor positioned exactly in FULL_SYNC, on a row between the run list's start and end. -/
def Obligations.CursorAgreesKept : Prop :=
  ∀ s u : State, CursorAgrees s → step s = .next u → CursorAgrees u

/-- The invariants hold at the reset state. -/
def Obligations.InvariantsAtReset : Prop :=
  QueuesFit State.reset ∧ CaptureAgrees State.reset ∧ CommitAgrees State.reset ∧ ImagesAgree State.reset ∧
    KnockStateFits State.reset ∧ GainsAgree State.reset ∧ CursorAgrees State.reset
end

