-- ==== Sys2Proof/Laws/State.lean ====
section
/-! SUPPORT. One lemma per field per update of State, each true by rfl, so that no later proof unfolds a record update. -/

namespace Sys2Proof.Machine

variable (s : State)

@[simp] theorem State.setRunning_running (x : Bool) : (s.setRunning x).running = x := rfl
@[simp] theorem State.setRunning_startUp (x : Bool) : (s.setRunning x).startUp = s.startUp := rfl
@[simp] theorem State.setRunning_timebase (x : Bool) : (s.setRunning x).timebase = s.timebase := rfl
@[simp] theorem State.setRunning_adec (x : Bool) : (s.setRunning x).adec = s.adec := rfl
@[simp] theorem State.setRunning_smap (x : Bool) : (s.setRunning x).smap = s.smap := rfl
@[simp] theorem State.setRunning_igsu (x : Bool) : (s.setRunning x).igsu = s.igsu := rfl
@[simp] theorem State.setRunning_ops (x : Bool) : (s.setRunning x).ops = s.ops := rfl
@[simp] theorem State.setRunning_mfa (x : Bool) : (s.setRunning x).mfa = s.mfa := rfl
@[simp] theorem State.setRunning_kfe (x : Bool) : (s.setRunning x).kfe = s.kfe := rfl
@[simp] theorem State.setRunning_kna (x : Bool) : (s.setRunning x).kna = s.kna := rfl
@[simp] theorem State.setRunning_cyt (x : Bool) : (s.setRunning x).cyt = s.cyt := rfl
@[simp] theorem State.setRunning_ports (x : Bool) : (s.setRunning x).ports = s.ports := rfl
@[simp] theorem State.setRunning_cap (x : Bool) : (s.setRunning x).cap = s.cap := rfl
@[simp] theorem State.setRunning_cfg (x : Bool) : (s.setRunning x).cfg = s.cfg := rfl
@[simp] theorem State.setRunning_pending (x : Bool) : (s.setRunning x).pending = s.pending := rfl

@[simp] theorem State.setStartUp_running (x : Bool) : (s.setStartUp x).running = s.running := rfl
@[simp] theorem State.setStartUp_startUp (x : Bool) : (s.setStartUp x).startUp = x := rfl
@[simp] theorem State.setStartUp_timebase (x : Bool) : (s.setStartUp x).timebase = s.timebase := rfl
@[simp] theorem State.setStartUp_adec (x : Bool) : (s.setStartUp x).adec = s.adec := rfl
@[simp] theorem State.setStartUp_smap (x : Bool) : (s.setStartUp x).smap = s.smap := rfl
@[simp] theorem State.setStartUp_igsu (x : Bool) : (s.setStartUp x).igsu = s.igsu := rfl
@[simp] theorem State.setStartUp_ops (x : Bool) : (s.setStartUp x).ops = s.ops := rfl
@[simp] theorem State.setStartUp_mfa (x : Bool) : (s.setStartUp x).mfa = s.mfa := rfl
@[simp] theorem State.setStartUp_kfe (x : Bool) : (s.setStartUp x).kfe = s.kfe := rfl
@[simp] theorem State.setStartUp_kna (x : Bool) : (s.setStartUp x).kna = s.kna := rfl
@[simp] theorem State.setStartUp_cyt (x : Bool) : (s.setStartUp x).cyt = s.cyt := rfl
@[simp] theorem State.setStartUp_ports (x : Bool) : (s.setStartUp x).ports = s.ports := rfl
@[simp] theorem State.setStartUp_cap (x : Bool) : (s.setStartUp x).cap = s.cap := rfl
@[simp] theorem State.setStartUp_cfg (x : Bool) : (s.setStartUp x).cfg = s.cfg := rfl
@[simp] theorem State.setStartUp_pending (x : Bool) : (s.setStartUp x).pending = s.pending := rfl

@[simp] theorem State.setTimebase_running (x : Stamp) : (s.setTimebase x).running = s.running := rfl
@[simp] theorem State.setTimebase_startUp (x : Stamp) : (s.setTimebase x).startUp = s.startUp := rfl
@[simp] theorem State.setTimebase_timebase (x : Stamp) : (s.setTimebase x).timebase = x := rfl
@[simp] theorem State.setTimebase_adec (x : Stamp) : (s.setTimebase x).adec = s.adec := rfl
@[simp] theorem State.setTimebase_smap (x : Stamp) : (s.setTimebase x).smap = s.smap := rfl
@[simp] theorem State.setTimebase_igsu (x : Stamp) : (s.setTimebase x).igsu = s.igsu := rfl
@[simp] theorem State.setTimebase_ops (x : Stamp) : (s.setTimebase x).ops = s.ops := rfl
@[simp] theorem State.setTimebase_mfa (x : Stamp) : (s.setTimebase x).mfa = s.mfa := rfl
@[simp] theorem State.setTimebase_kfe (x : Stamp) : (s.setTimebase x).kfe = s.kfe := rfl
@[simp] theorem State.setTimebase_kna (x : Stamp) : (s.setTimebase x).kna = s.kna := rfl
@[simp] theorem State.setTimebase_cyt (x : Stamp) : (s.setTimebase x).cyt = s.cyt := rfl
@[simp] theorem State.setTimebase_ports (x : Stamp) : (s.setTimebase x).ports = s.ports := rfl
@[simp] theorem State.setTimebase_cap (x : Stamp) : (s.setTimebase x).cap = s.cap := rfl
@[simp] theorem State.setTimebase_cfg (x : Stamp) : (s.setTimebase x).cfg = s.cfg := rfl
@[simp] theorem State.setTimebase_pending (x : Stamp) : (s.setTimebase x).pending = s.pending := rfl

@[simp] theorem State.setAdec_running (x : Adec) : (s.setAdec x).running = s.running := rfl
@[simp] theorem State.setAdec_startUp (x : Adec) : (s.setAdec x).startUp = s.startUp := rfl
@[simp] theorem State.setAdec_timebase (x : Adec) : (s.setAdec x).timebase = s.timebase := rfl
@[simp] theorem State.setAdec_adec (x : Adec) : (s.setAdec x).adec = x := rfl
@[simp] theorem State.setAdec_smap (x : Adec) : (s.setAdec x).smap = s.smap := rfl
@[simp] theorem State.setAdec_igsu (x : Adec) : (s.setAdec x).igsu = s.igsu := rfl
@[simp] theorem State.setAdec_ops (x : Adec) : (s.setAdec x).ops = s.ops := rfl
@[simp] theorem State.setAdec_mfa (x : Adec) : (s.setAdec x).mfa = s.mfa := rfl
@[simp] theorem State.setAdec_kfe (x : Adec) : (s.setAdec x).kfe = s.kfe := rfl
@[simp] theorem State.setAdec_kna (x : Adec) : (s.setAdec x).kna = s.kna := rfl
@[simp] theorem State.setAdec_cyt (x : Adec) : (s.setAdec x).cyt = s.cyt := rfl
@[simp] theorem State.setAdec_ports (x : Adec) : (s.setAdec x).ports = s.ports := rfl
@[simp] theorem State.setAdec_cap (x : Adec) : (s.setAdec x).cap = s.cap := rfl
@[simp] theorem State.setAdec_cfg (x : Adec) : (s.setAdec x).cfg = s.cfg := rfl
@[simp] theorem State.setAdec_pending (x : Adec) : (s.setAdec x).pending = s.pending := rfl

@[simp] theorem State.setSmap_running (x : Smap) : (s.setSmap x).running = s.running := rfl
@[simp] theorem State.setSmap_startUp (x : Smap) : (s.setSmap x).startUp = s.startUp := rfl
@[simp] theorem State.setSmap_timebase (x : Smap) : (s.setSmap x).timebase = s.timebase := rfl
@[simp] theorem State.setSmap_adec (x : Smap) : (s.setSmap x).adec = s.adec := rfl
@[simp] theorem State.setSmap_smap (x : Smap) : (s.setSmap x).smap = x := rfl
@[simp] theorem State.setSmap_igsu (x : Smap) : (s.setSmap x).igsu = s.igsu := rfl
@[simp] theorem State.setSmap_ops (x : Smap) : (s.setSmap x).ops = s.ops := rfl
@[simp] theorem State.setSmap_mfa (x : Smap) : (s.setSmap x).mfa = s.mfa := rfl
@[simp] theorem State.setSmap_kfe (x : Smap) : (s.setSmap x).kfe = s.kfe := rfl
@[simp] theorem State.setSmap_kna (x : Smap) : (s.setSmap x).kna = s.kna := rfl
@[simp] theorem State.setSmap_cyt (x : Smap) : (s.setSmap x).cyt = s.cyt := rfl
@[simp] theorem State.setSmap_ports (x : Smap) : (s.setSmap x).ports = s.ports := rfl
@[simp] theorem State.setSmap_cap (x : Smap) : (s.setSmap x).cap = s.cap := rfl
@[simp] theorem State.setSmap_cfg (x : Smap) : (s.setSmap x).cfg = s.cfg := rfl
@[simp] theorem State.setSmap_pending (x : Smap) : (s.setSmap x).pending = s.pending := rfl

@[simp] theorem State.setIgsu_running (x : PerCyl (Option SparkRecord)) : (s.setIgsu x).running = s.running := rfl
@[simp] theorem State.setIgsu_startUp (x : PerCyl (Option SparkRecord)) : (s.setIgsu x).startUp = s.startUp := rfl
@[simp] theorem State.setIgsu_timebase (x : PerCyl (Option SparkRecord)) : (s.setIgsu x).timebase = s.timebase := rfl
@[simp] theorem State.setIgsu_adec (x : PerCyl (Option SparkRecord)) : (s.setIgsu x).adec = s.adec := rfl
@[simp] theorem State.setIgsu_smap (x : PerCyl (Option SparkRecord)) : (s.setIgsu x).smap = s.smap := rfl
@[simp] theorem State.setIgsu_igsu (x : PerCyl (Option SparkRecord)) : (s.setIgsu x).igsu = x := rfl
@[simp] theorem State.setIgsu_ops (x : PerCyl (Option SparkRecord)) : (s.setIgsu x).ops = s.ops := rfl
@[simp] theorem State.setIgsu_mfa (x : PerCyl (Option SparkRecord)) : (s.setIgsu x).mfa = s.mfa := rfl
@[simp] theorem State.setIgsu_kfe (x : PerCyl (Option SparkRecord)) : (s.setIgsu x).kfe = s.kfe := rfl
@[simp] theorem State.setIgsu_kna (x : PerCyl (Option SparkRecord)) : (s.setIgsu x).kna = s.kna := rfl
@[simp] theorem State.setIgsu_cyt (x : PerCyl (Option SparkRecord)) : (s.setIgsu x).cyt = s.cyt := rfl
@[simp] theorem State.setIgsu_ports (x : PerCyl (Option SparkRecord)) : (s.setIgsu x).ports = s.ports := rfl
@[simp] theorem State.setIgsu_cap (x : PerCyl (Option SparkRecord)) : (s.setIgsu x).cap = s.cap := rfl
@[simp] theorem State.setIgsu_cfg (x : PerCyl (Option SparkRecord)) : (s.setIgsu x).cfg = s.cfg := rfl
@[simp] theorem State.setIgsu_pending (x : PerCyl (Option SparkRecord)) : (s.setIgsu x).pending = s.pending := rfl

@[simp] theorem State.setOps_running (x : Ops) : (s.setOps x).running = s.running := rfl
@[simp] theorem State.setOps_startUp (x : Ops) : (s.setOps x).startUp = s.startUp := rfl
@[simp] theorem State.setOps_timebase (x : Ops) : (s.setOps x).timebase = s.timebase := rfl
@[simp] theorem State.setOps_adec (x : Ops) : (s.setOps x).adec = s.adec := rfl
@[simp] theorem State.setOps_smap (x : Ops) : (s.setOps x).smap = s.smap := rfl
@[simp] theorem State.setOps_igsu (x : Ops) : (s.setOps x).igsu = s.igsu := rfl
@[simp] theorem State.setOps_ops (x : Ops) : (s.setOps x).ops = x := rfl
@[simp] theorem State.setOps_mfa (x : Ops) : (s.setOps x).mfa = s.mfa := rfl
@[simp] theorem State.setOps_kfe (x : Ops) : (s.setOps x).kfe = s.kfe := rfl
@[simp] theorem State.setOps_kna (x : Ops) : (s.setOps x).kna = s.kna := rfl
@[simp] theorem State.setOps_cyt (x : Ops) : (s.setOps x).cyt = s.cyt := rfl
@[simp] theorem State.setOps_ports (x : Ops) : (s.setOps x).ports = s.ports := rfl
@[simp] theorem State.setOps_cap (x : Ops) : (s.setOps x).cap = s.cap := rfl
@[simp] theorem State.setOps_cfg (x : Ops) : (s.setOps x).cfg = s.cfg := rfl
@[simp] theorem State.setOps_pending (x : Ops) : (s.setOps x).pending = s.pending := rfl

@[simp] theorem State.setMfa_running (x : Mfa) : (s.setMfa x).running = s.running := rfl
@[simp] theorem State.setMfa_startUp (x : Mfa) : (s.setMfa x).startUp = s.startUp := rfl
@[simp] theorem State.setMfa_timebase (x : Mfa) : (s.setMfa x).timebase = s.timebase := rfl
@[simp] theorem State.setMfa_adec (x : Mfa) : (s.setMfa x).adec = s.adec := rfl
@[simp] theorem State.setMfa_smap (x : Mfa) : (s.setMfa x).smap = s.smap := rfl
@[simp] theorem State.setMfa_igsu (x : Mfa) : (s.setMfa x).igsu = s.igsu := rfl
@[simp] theorem State.setMfa_ops (x : Mfa) : (s.setMfa x).ops = s.ops := rfl
@[simp] theorem State.setMfa_mfa (x : Mfa) : (s.setMfa x).mfa = x := rfl
@[simp] theorem State.setMfa_kfe (x : Mfa) : (s.setMfa x).kfe = s.kfe := rfl
@[simp] theorem State.setMfa_kna (x : Mfa) : (s.setMfa x).kna = s.kna := rfl
@[simp] theorem State.setMfa_cyt (x : Mfa) : (s.setMfa x).cyt = s.cyt := rfl
@[simp] theorem State.setMfa_ports (x : Mfa) : (s.setMfa x).ports = s.ports := rfl
@[simp] theorem State.setMfa_cap (x : Mfa) : (s.setMfa x).cap = s.cap := rfl
@[simp] theorem State.setMfa_cfg (x : Mfa) : (s.setMfa x).cfg = s.cfg := rfl
@[simp] theorem State.setMfa_pending (x : Mfa) : (s.setMfa x).pending = s.pending := rfl

@[simp] theorem State.setKfe_running (x : Kfe) : (s.setKfe x).running = s.running := rfl
@[simp] theorem State.setKfe_startUp (x : Kfe) : (s.setKfe x).startUp = s.startUp := rfl
@[simp] theorem State.setKfe_timebase (x : Kfe) : (s.setKfe x).timebase = s.timebase := rfl
@[simp] theorem State.setKfe_adec (x : Kfe) : (s.setKfe x).adec = s.adec := rfl
@[simp] theorem State.setKfe_smap (x : Kfe) : (s.setKfe x).smap = s.smap := rfl
@[simp] theorem State.setKfe_igsu (x : Kfe) : (s.setKfe x).igsu = s.igsu := rfl
@[simp] theorem State.setKfe_ops (x : Kfe) : (s.setKfe x).ops = s.ops := rfl
@[simp] theorem State.setKfe_mfa (x : Kfe) : (s.setKfe x).mfa = s.mfa := rfl
@[simp] theorem State.setKfe_kfe (x : Kfe) : (s.setKfe x).kfe = x := rfl
@[simp] theorem State.setKfe_kna (x : Kfe) : (s.setKfe x).kna = s.kna := rfl
@[simp] theorem State.setKfe_cyt (x : Kfe) : (s.setKfe x).cyt = s.cyt := rfl
@[simp] theorem State.setKfe_ports (x : Kfe) : (s.setKfe x).ports = s.ports := rfl
@[simp] theorem State.setKfe_cap (x : Kfe) : (s.setKfe x).cap = s.cap := rfl
@[simp] theorem State.setKfe_cfg (x : Kfe) : (s.setKfe x).cfg = s.cfg := rfl
@[simp] theorem State.setKfe_pending (x : Kfe) : (s.setKfe x).pending = s.pending := rfl

@[simp] theorem State.setKna_running (x : Kna) : (s.setKna x).running = s.running := rfl
@[simp] theorem State.setKna_startUp (x : Kna) : (s.setKna x).startUp = s.startUp := rfl
@[simp] theorem State.setKna_timebase (x : Kna) : (s.setKna x).timebase = s.timebase := rfl
@[simp] theorem State.setKna_adec (x : Kna) : (s.setKna x).adec = s.adec := rfl
@[simp] theorem State.setKna_smap (x : Kna) : (s.setKna x).smap = s.smap := rfl
@[simp] theorem State.setKna_igsu (x : Kna) : (s.setKna x).igsu = s.igsu := rfl
@[simp] theorem State.setKna_ops (x : Kna) : (s.setKna x).ops = s.ops := rfl
@[simp] theorem State.setKna_mfa (x : Kna) : (s.setKna x).mfa = s.mfa := rfl
@[simp] theorem State.setKna_kfe (x : Kna) : (s.setKna x).kfe = s.kfe := rfl
@[simp] theorem State.setKna_kna (x : Kna) : (s.setKna x).kna = x := rfl
@[simp] theorem State.setKna_cyt (x : Kna) : (s.setKna x).cyt = s.cyt := rfl
@[simp] theorem State.setKna_ports (x : Kna) : (s.setKna x).ports = s.ports := rfl
@[simp] theorem State.setKna_cap (x : Kna) : (s.setKna x).cap = s.cap := rfl
@[simp] theorem State.setKna_cfg (x : Kna) : (s.setKna x).cfg = s.cfg := rfl
@[simp] theorem State.setKna_pending (x : Kna) : (s.setKna x).pending = s.pending := rfl

@[simp] theorem State.setCyt_running (x : Cyt) : (s.setCyt x).running = s.running := rfl
@[simp] theorem State.setCyt_startUp (x : Cyt) : (s.setCyt x).startUp = s.startUp := rfl
@[simp] theorem State.setCyt_timebase (x : Cyt) : (s.setCyt x).timebase = s.timebase := rfl
@[simp] theorem State.setCyt_adec (x : Cyt) : (s.setCyt x).adec = s.adec := rfl
@[simp] theorem State.setCyt_smap (x : Cyt) : (s.setCyt x).smap = s.smap := rfl
@[simp] theorem State.setCyt_igsu (x : Cyt) : (s.setCyt x).igsu = s.igsu := rfl
@[simp] theorem State.setCyt_ops (x : Cyt) : (s.setCyt x).ops = s.ops := rfl
@[simp] theorem State.setCyt_mfa (x : Cyt) : (s.setCyt x).mfa = s.mfa := rfl
@[simp] theorem State.setCyt_kfe (x : Cyt) : (s.setCyt x).kfe = s.kfe := rfl
@[simp] theorem State.setCyt_kna (x : Cyt) : (s.setCyt x).kna = s.kna := rfl
@[simp] theorem State.setCyt_cyt (x : Cyt) : (s.setCyt x).cyt = x := rfl
@[simp] theorem State.setCyt_ports (x : Cyt) : (s.setCyt x).ports = s.ports := rfl
@[simp] theorem State.setCyt_cap (x : Cyt) : (s.setCyt x).cap = s.cap := rfl
@[simp] theorem State.setCyt_cfg (x : Cyt) : (s.setCyt x).cfg = s.cfg := rfl
@[simp] theorem State.setCyt_pending (x : Cyt) : (s.setCyt x).pending = s.pending := rfl

@[simp] theorem State.setPorts_running (x : PerPort PortState) : (s.setPorts x).running = s.running := rfl
@[simp] theorem State.setPorts_startUp (x : PerPort PortState) : (s.setPorts x).startUp = s.startUp := rfl
@[simp] theorem State.setPorts_timebase (x : PerPort PortState) : (s.setPorts x).timebase = s.timebase := rfl
@[simp] theorem State.setPorts_adec (x : PerPort PortState) : (s.setPorts x).adec = s.adec := rfl
@[simp] theorem State.setPorts_smap (x : PerPort PortState) : (s.setPorts x).smap = s.smap := rfl
@[simp] theorem State.setPorts_igsu (x : PerPort PortState) : (s.setPorts x).igsu = s.igsu := rfl
@[simp] theorem State.setPorts_ops (x : PerPort PortState) : (s.setPorts x).ops = s.ops := rfl
@[simp] theorem State.setPorts_mfa (x : PerPort PortState) : (s.setPorts x).mfa = s.mfa := rfl
@[simp] theorem State.setPorts_kfe (x : PerPort PortState) : (s.setPorts x).kfe = s.kfe := rfl
@[simp] theorem State.setPorts_kna (x : PerPort PortState) : (s.setPorts x).kna = s.kna := rfl
@[simp] theorem State.setPorts_cyt (x : PerPort PortState) : (s.setPorts x).cyt = s.cyt := rfl
@[simp] theorem State.setPorts_ports (x : PerPort PortState) : (s.setPorts x).ports = x := rfl
@[simp] theorem State.setPorts_cap (x : PerPort PortState) : (s.setPorts x).cap = s.cap := rfl
@[simp] theorem State.setPorts_cfg (x : PerPort PortState) : (s.setPorts x).cfg = s.cfg := rfl
@[simp] theorem State.setPorts_pending (x : PerPort PortState) : (s.setPorts x).pending = s.pending := rfl

@[simp] theorem State.setCap_running (x : Cap) : (s.setCap x).running = s.running := rfl
@[simp] theorem State.setCap_startUp (x : Cap) : (s.setCap x).startUp = s.startUp := rfl
@[simp] theorem State.setCap_timebase (x : Cap) : (s.setCap x).timebase = s.timebase := rfl
@[simp] theorem State.setCap_adec (x : Cap) : (s.setCap x).adec = s.adec := rfl
@[simp] theorem State.setCap_smap (x : Cap) : (s.setCap x).smap = s.smap := rfl
@[simp] theorem State.setCap_igsu (x : Cap) : (s.setCap x).igsu = s.igsu := rfl
@[simp] theorem State.setCap_ops (x : Cap) : (s.setCap x).ops = s.ops := rfl
@[simp] theorem State.setCap_mfa (x : Cap) : (s.setCap x).mfa = s.mfa := rfl
@[simp] theorem State.setCap_kfe (x : Cap) : (s.setCap x).kfe = s.kfe := rfl
@[simp] theorem State.setCap_kna (x : Cap) : (s.setCap x).kna = s.kna := rfl
@[simp] theorem State.setCap_cyt (x : Cap) : (s.setCap x).cyt = s.cyt := rfl
@[simp] theorem State.setCap_ports (x : Cap) : (s.setCap x).ports = s.ports := rfl
@[simp] theorem State.setCap_cap (x : Cap) : (s.setCap x).cap = x := rfl
@[simp] theorem State.setCap_cfg (x : Cap) : (s.setCap x).cfg = s.cfg := rfl
@[simp] theorem State.setCap_pending (x : Cap) : (s.setCap x).pending = s.pending := rfl

@[simp] theorem State.setCfg_running (x : Cfg) : (s.setCfg x).running = s.running := rfl
@[simp] theorem State.setCfg_startUp (x : Cfg) : (s.setCfg x).startUp = s.startUp := rfl
@[simp] theorem State.setCfg_timebase (x : Cfg) : (s.setCfg x).timebase = s.timebase := rfl
@[simp] theorem State.setCfg_adec (x : Cfg) : (s.setCfg x).adec = s.adec := rfl
@[simp] theorem State.setCfg_smap (x : Cfg) : (s.setCfg x).smap = s.smap := rfl
@[simp] theorem State.setCfg_igsu (x : Cfg) : (s.setCfg x).igsu = s.igsu := rfl
@[simp] theorem State.setCfg_ops (x : Cfg) : (s.setCfg x).ops = s.ops := rfl
@[simp] theorem State.setCfg_mfa (x : Cfg) : (s.setCfg x).mfa = s.mfa := rfl
@[simp] theorem State.setCfg_kfe (x : Cfg) : (s.setCfg x).kfe = s.kfe := rfl
@[simp] theorem State.setCfg_kna (x : Cfg) : (s.setCfg x).kna = s.kna := rfl
@[simp] theorem State.setCfg_cyt (x : Cfg) : (s.setCfg x).cyt = s.cyt := rfl
@[simp] theorem State.setCfg_ports (x : Cfg) : (s.setCfg x).ports = s.ports := rfl
@[simp] theorem State.setCfg_cap (x : Cfg) : (s.setCfg x).cap = s.cap := rfl
@[simp] theorem State.setCfg_cfg (x : Cfg) : (s.setCfg x).cfg = x := rfl
@[simp] theorem State.setCfg_pending (x : Cfg) : (s.setCfg x).pending = s.pending := rfl

@[simp] theorem State.setPending_running (x : List Instr) : (s.setPending x).running = s.running := rfl
@[simp] theorem State.setPending_startUp (x : List Instr) : (s.setPending x).startUp = s.startUp := rfl
@[simp] theorem State.setPending_timebase (x : List Instr) : (s.setPending x).timebase = s.timebase := rfl
@[simp] theorem State.setPending_adec (x : List Instr) : (s.setPending x).adec = s.adec := rfl
@[simp] theorem State.setPending_smap (x : List Instr) : (s.setPending x).smap = s.smap := rfl
@[simp] theorem State.setPending_igsu (x : List Instr) : (s.setPending x).igsu = s.igsu := rfl
@[simp] theorem State.setPending_ops (x : List Instr) : (s.setPending x).ops = s.ops := rfl
@[simp] theorem State.setPending_mfa (x : List Instr) : (s.setPending x).mfa = s.mfa := rfl
@[simp] theorem State.setPending_kfe (x : List Instr) : (s.setPending x).kfe = s.kfe := rfl
@[simp] theorem State.setPending_kna (x : List Instr) : (s.setPending x).kna = s.kna := rfl
@[simp] theorem State.setPending_cyt (x : List Instr) : (s.setPending x).cyt = s.cyt := rfl
@[simp] theorem State.setPending_ports (x : List Instr) : (s.setPending x).ports = s.ports := rfl
@[simp] theorem State.setPending_cap (x : List Instr) : (s.setPending x).cap = s.cap := rfl
@[simp] theorem State.setPending_cfg (x : List Instr) : (s.setPending x).cfg = s.cfg := rfl
@[simp] theorem State.setPending_pending (x : List Instr) : (s.setPending x).pending = x := rfl

end Sys2Proof.Machine
end

