-- ==== Sys2Proof/Laws/Tables.lean ====
section
/-! SUPPORT. Laws of the tables: reading back what was written, one of several like things at a time. -/

namespace Sys2Proof.Machine

variable {α β : Type}

/-! ### Ports -/

@[simp] theorem PerPort.get_set_same (v : PerPort α) (p : Port) (x : α) : (v.set p x).get p = x := by cases p <;> rfl

theorem PerPort.get_set_ne (v : PerPort α) {p q : Port} (x : α) (h : q ≠ p) : (v.set p x).get q = v.get q := by
  cases p <;> cases q <;> first | rfl | exact absurd rfl h

theorem PerPort.get_set (v : PerPort α) (p q : Port) (x : α) : (v.set p x).get q = if q = p then x else v.get q := by
  cases p <;> cases q <;> rfl

@[simp] theorem PerPort.set_set (v : PerPort α) (p : Port) (x y : α) : (v.set p x).set p y = v.set p y := by cases p <;> rfl

@[simp] theorem PerPort.set_get (v : PerPort α) (p : Port) : v.set p (v.get p) = v := by cases p <;> rfl

@[simp] theorem PerPort.get_map (f : α → β) (v : PerPort α) (p : Port) : (v.map f).get p = f (v.get p) := by cases p <;> rfl

theorem PerPort.map_map {γ : Type} (f : α → β) (g : β → γ) (v : PerPort α) : (v.map f).map g = v.map fun x => g (f x) := rfl

theorem PerPort.ext_get {v w : PerPort α} (h : ∀ p, v.get p = w.get p) : v = w := by
  obtain ⟨a, b, c⟩ := v
  obtain ⟨a', b', c'⟩ := w
  have ha := h .a
  have hb := h .b
  have hc := h .c
  simp only [PerPort.get] at ha hb hc
  rw [ha, hb, hc]

/-! ### Cylinders -/

@[simp] theorem PerCyl.get_set_same (v : PerCyl α) (c : Cyl) (x : α) : (v.set c x).get c = x := by cases c <;> rfl

theorem PerCyl.get_set_ne (v : PerCyl α) {c d : Cyl} (x : α) (h : d ≠ c) : (v.set c x).get d = v.get d := by
  cases c <;> cases d <;> first | rfl | exact absurd rfl h

@[simp] theorem PerCyl.set_get (v : PerCyl α) (c : Cyl) : v.set c (v.get c) = v := by cases c <;> rfl

@[simp] theorem PerCyl.get_mapWith (f : Cyl → α → β) (v : PerCyl α) (c : Cyl) : (v.mapWith f).get c = f c (v.get c) := by
  cases c <;> rfl

/-- A cylinder's number lies from 1 to 6, and names that cylinder. -/
@[simp] theorem cylOfNumber_cylNumber (c : Cyl) : cylOfNumber (cylNumber c) = some c := by cases c <;> rfl

theorem cylNumber_range (c : Cyl) : 1 ≤ cylNumber c ∧ cylNumber c ≤ 6 := by cases c <;> decide

/-- A number names a cylinder exactly from 1 to 6, and then is that cylinder's number. -/
theorem cylOfNumber_eq_some {n : Nat} {c : Cyl} : cylOfNumber n = some c ↔ n = cylNumber c := by
  constructor
  · intro h
    unfold cylOfNumber at h
    split at h <;> simp_all only [Option.some.injEq, reduceCtorEq] <;> (subst h; rfl)
  · rintro rfl
    exact cylOfNumber_cylNumber c

theorem cylOfNumber_none {n : Nat} : cylOfNumber n = none ↔ n = 0 ∨ 6 < n := by
  constructor
  · intro h
    by_contra hn
    have : n = 1 ∨ n = 2 ∨ n = 3 ∨ n = 4 ∨ n = 5 ∨ n = 6 := by omega
    rcases this with rfl | rfl | rfl | rfl | rfl | rfl <;> simp [cylOfNumber] at h
  · intro h
    cases hc : cylOfNumber n with
    | none => rfl
    | some c =>
      rw [cylOfNumber_eq_some] at hc
      have := cylNumber_range c
      omega

/-! ### Sensors -/

@[simp] theorem PerSensor.get_set_same (v : PerSensor α) (σ : Sensor) (x : α) : (v.set σ x).get σ = x := by cases σ <;> rfl

theorem PerSensor.get_set_ne (v : PerSensor α) {σ τ : Sensor} (x : α) (h : τ ≠ σ) : (v.set σ x).get τ = v.get τ := by
  cases σ <;> cases τ <;> first | rfl | exact absurd rfl h

@[simp] theorem PerSensor.get_map (f : α → β) (v : PerSensor α) (σ : Sensor) : (v.map f).get σ = f (v.get σ) := by
  cases σ <;> rfl

/-! ### Vectors -/

theorem vget_vset_same {n : Nat} (d : α) (v : Vector α n) {i : Nat} (x : α) (h : i < n) : vget d (vset v i x) i = x := by
  simp [vget, vset, h]

theorem vget_vset_ne {n : Nat} (d : α) (v : Vector α n) {i j : Nat} (x : α) (h : j ≠ i) :
    vget d (vset v i x) j = vget d v j := by
  unfold vget vset
  by_cases hj : j < n <;> by_cases hi : i < n <;> simp [hj, hi, Ne.symm h]

/-- Changing every entry changes each by its number. -/
theorem vget_vmapIdx {n : Nat} (d : β) (e : α) (f : Nat → α → β) (v : Vector α n) {i : Nat} (h : i < n) :
    vget d (vmapIdx f v) i = f i (vget e v i) := by
  simp [vget, vmapIdx, h]

/-! ### Gains -/

@[simp] theorem gainOfValue_value (g : Gain) : gainOfValue g.value = some g := by cases g <;> rfl

theorem Gain.down_value (g : Gain) (h : g ≠ .g1) : 2 * g.down.value = g.value := by
  cases g <;> first | exact absurd rfl h | rfl

theorem Gain.up_value (g : Gain) (h : g ≠ .g32) : g.up.value = 2 * g.value := by
  cases g <;> first | exact absurd rfl h | rfl

/-- Every gain divides 32 exactly. -/
theorem Gain.value_mul_quot (g : Gain) : 32 / g.value * g.value = 32 := by cases g <;> rfl

end Sys2Proof.Machine
end

