-- ==== Sys2Proof/Laws/Ops.lean ====
section
/-! SUPPORT. Laws of the shared operations: the arrival of an event, the taking of a request, the length test, and a record offered
to a queue. -/

namespace Sys2Proof.Machine

/-! ### Ports of a state -/

@[simp] theorem State.port_setPort_same (s : State) (p : Port) (x : PortState) : (s.setPort p x).port p = x :=
  PerPort.get_set_same _ _ _

theorem State.port_setPort_ne (s : State) {p q : Port} (x : PortState) (h : q ≠ p) : (s.setPort p x).port q = s.port q :=
  PerPort.get_set_ne _ _ h

@[simp] theorem State.setPort_setPort (s : State) (p : Port) (x y : PortState) :
    (s.setPort p x).setPort p y = s.setPort p y := by
  simp [State.setPort, State.setPorts]

/-- Writing one port changes the ports alone. -/
theorem State.setPort_eq (s : State) (p : Port) (x : PortState) : s.setPort p x = { s with ports := s.ports.set p x } := rfl

/-! ### Arrival -/

/-- While RSTN is at "H" an event acts on the state at its stamp. -/
theorem onEvent_running {s : State} (h : s.running = true) (t : Stamp) (act : State → State) :
    onEvent t act s = act (s.setTimebase t) := by
  simp [onEvent, h, State.arrive]

/-- While RSTN is at "L" an event does nothing. -/
theorem onEvent_held {s : State} (h : s.running = false) (t : Stamp) (act : State → State) : onEvent t act s = s := by
  simp [onEvent, h]

/-! ### Taking a request -/

/-- Everything that select's rising edge can do: nothing while the part is held in reset; otherwise only time passes when no selection
is in progress, a selection answered NOT_READY ends, and any other request is carried out and answered. -/
theorem takeRequest_cases (t : Stamp) (p : Port) (serve : State → State × Response) (s : State) :
    (s.running = false ∧ takeRequest t p serve s = s) ∨
    (s.running = true ∧ (s.port p).selection = .idle ∧ takeRequest t p serve s = s.setTimebase t) ∨
    (s.running = true ∧ (s.port p).selection = .refused ∧
      takeRequest t p serve s = (s.setTimebase t).endSelection p) ∨
    (s.running = true ∧ (s.port p).selection = .serving ∧
      takeRequest t p serve s =
        ((serve ((s.setTimebase t).takeSelection p t)).1).respond p (serve ((s.setTimebase t).takeSelection p t)).2) := by
  cases hr : s.running
  · exact .inl ⟨rfl, onEvent_held hr t _⟩
  · have hp : (s.setTimebase t).port p = s.port p := rfl
    refine .inr ?_
    rw [takeRequest, onEvent_running hr]
    cases hs : (s.port p).selection
    · exact .inl ⟨rfl, rfl, by simp [hp, hs]⟩
    · exact .inr (.inr ⟨rfl, rfl, by simp [hp, hs]⟩)
    · exact .inr (.inl ⟨rfl, rfl, by simp [hp, hs]⟩)

/-- A request that is taken is carried out and answered. -/
theorem takeRequest_serving {s : State} {p : Port} (hr : s.running = true) (hs : (s.port p).selection = .serving) (t : Stamp)
    (serve : State → State × Response) :
    takeRequest t p serve s =
      ((serve ((s.setTimebase t).takeSelection p t)).1).respond p (serve ((s.setTimebase t).takeSelection p t)).2 := by
  rcases takeRequest_cases t p serve s with h | h | h | h
  · simp [hr] at h
  · simp [hs] at h
  · simp [hs] at h
  · exact h.2.2

/-! ### The length test -/

theorem ofLength_exact {n : Nat} {payload : List Byte} (h : payload.length = n) (hn : n ≤ 250)
    (serve : State → State × Response) : ofLength n payload serve = serve := by
  funext s
  have : ¬ Config.maxPayload < payload.length := by
    rw [h]
    exact Nat.not_lt.mpr hn
  rw [ofLength, if_neg this, if_pos h]

theorem ofLength_wrong {n : Nat} {payload : List Byte} (h : payload.length ≠ n) (hp : payload.length ≤ 250)
    (serve : State → State × Response) : ofLength n payload serve = refuse .badLength := by
  funext s
  have : ¬ Config.maxPayload < payload.length := Nat.not_lt.mpr hp
  simp [ofLength, this, h, refuse]

theorem ofLength_long {n : Nat} {payload : List Byte} (h : 250 < payload.length) (serve : State → State × Response) :
    ofLength n payload serve = refuse .badFrame := by
  funext s
  have : Config.maxPayload < payload.length := h
  simp [ofLength, this, refuse]

/-! ### A record offered to a queue -/

/-- A queue whose subscription leaves out the kind takes no copy (R146). -/
theorem PortState.offer_unsubscribed {r : Record} {x : PortState} (h : x.subscription.getLsbD (r.body.kindCode - 1) = false) :
    x.offer r = x := by
  simp [PortState.offer, h]

/-- A queue with room takes the record at its newest end (R146). -/
theorem PortState.offer_room {r : Record} {x : PortState} (h : x.subscription.getLsbD (r.body.kindCode - 1) = true)
    (hq : x.queue.length < 128) : x.offer r = { x with queue := x.queue ++ [r] } := by
  simp [PortState.offer, h, hq]

/-- A full queue discards the record, counts it and sets QUEUE_OVERFLOW (R146). -/
theorem PortState.offer_full {r : Record} {x : PortState} (h : x.subscription.getLsbD (r.body.kindCode - 1) = true)
    (hq : 128 ≤ x.queue.length) :
    x.offer r = { x with dropped := min 65535 (x.dropped + 1), alerts := x.alerts ||| 1#5 } := by
  have : ¬ x.queue.length < Config.queueCapacity := Nat.not_lt.mpr hq
  simp [PortState.offer, h, this, PortState.raiseAlert, alertBit, alertOverflow, bump]

/-- An offer keeps a queue within its capacity (R146). -/
theorem PortState.offer_queue_le (r : Record) {x : PortState} (h : x.queue.length ≤ 128) : (x.offer r).queue.length ≤ 128 := by
  unfold PortState.offer
  split
  · split
    · rename_i hlt
      simp only [List.length_append, List.length_singleton]
      exact hlt
    · simpa [PortState.raiseAlert] using h
  · exact h

/-- An offer touches nothing but the queue, the dropped count and the alerts. -/
theorem PortState.offer_frame (r : Record) (x : PortState) :
    x.offer r = { x with queue := (x.offer r).queue, dropped := (x.offer r).dropped, alerts := (x.offer r).alerts } := by
  unfold PortState.offer
  split
  · split <;> rfl
  · rfl

@[simp] theorem PortState.raiseAlert_queue (b : Nat) (x : PortState) : (x.raiseAlert b).queue = x.queue := rfl

@[simp] theorem State.emit_port (s : State) (r : Record) (p : Port) : (s.emit r).port p = (s.port p).offer r :=
  PerPort.get_map _ _ _

@[simp] theorem State.alertAll_port (s : State) (b : Nat) (p : Port) : (s.alertAll b).port p = (s.port p).raiseAlert b :=
  PerPort.get_map _ _ _

/-! ### Bytes -/

@[simp] theorem beBytes_length (k n : Nat) : (beBytes k n).length = k := by
  induction k with
  | zero => rfl
  | succ k ih => simp [beBytes, ih]

theorem bump_le (top n : Nat) : bump top n ≤ top := Nat.min_le_left _ _

/-- A clamped value lies in its range. -/
theorem clamp_range {lo hi : Nat} (h : lo ≤ hi) (x : Int) : lo ≤ clamp lo hi x ∧ clamp lo hi x ≤ hi := by
  unfold clamp
  omega

end Sys2Proof.Machine
end

