-- ==== Sys2Proof/Laws/Capture.lean ====
section
/-! SUPPORT. Laws of the capture unit: every operation on the capture memory keeps its canonical form, what a word written reads
back as, what latching and the grant rule can do, and that a new handle is free and in range. -/

namespace Sys2Proof.Machine

/-! ### The capture memory (R156) -/

theorem Memory.wf_iff (m : Memory) : m.wf = true ↔ m.words.length ≤ 4096 := by
  simp [Memory.wf]

@[simp] theorem Memory.wf_empty : Memory.empty.wf = true := by decide

/-- The memory after reset has its canonical form. -/
theorem Memory.wf_reset : State.reset.cap.mem.wf = true := by decide

theorem Memory.wf_push {m : Memory} (h : m.wf = true) (w : Half) : (m.push w).wf = true := by
  unfold Memory.push
  split
  · rename_i hlt
    rw [Memory.wf_iff, List.length_append, List.length_singleton]
    exact hlt
  · exact h

theorem Memory.wf_patch {m : Memory} (h : m.wf = true) (i : Nat) (f : Half → Half) : (m.patch i f).wf = true := by
  rw [Memory.wf_iff] at h ⊢
  simpa [Memory.patch] using h

/-- A header of four words fits when four words are free (R163). -/
theorem Memory.wf_header {m : Memory} (h : m.held + 4 ≤ 4096) (a b c d : Half) :
    (Memory.wf ⟨m.words ++ [a, b, c, d]⟩) = true := by
  rw [Memory.wf_iff]
  simpa [Memory.held] using h

/-- The word just written stands at the place that was the next free one (R156). -/
theorem Memory.read_push_new {m : Memory} (h : m.held < 4096) (w : Half) : (m.push w).read m.held = some w := by
  rw [Memory.push, if_pos (show m.held < Config.captureWords from h)]
  simp [Memory.read, Memory.held]

/-- A write leaves every word held as it was (R156). -/
theorem Memory.read_push_old (m : Memory) (w : Half) {i : Nat} (h : i < m.held) : (m.push w).read i = m.read i := by
  unfold Memory.push
  split
  · exact List.getElem?_append_left h
  · rfl

/-- A full memory stores nothing (R164). -/
theorem Memory.push_full {m : Memory} (h : 4096 ≤ m.held) (w : Half) : m.push w = m :=
  if_neg (Nat.not_lt.mpr h)

/-- A header field that is rewritten leaves every other word as it was. -/
theorem Memory.read_patch_ne (m : Memory) (f : Half → Half) {i j : Nat} (h : i ≠ j) : (m.patch j f).read i = m.read i := by
  simp [Memory.patch, Memory.read, Ne.symm h]

theorem Memory.read_patch_same (m : Memory) (f : Half → Half) (i : Nat) : (m.patch i f).read i = (m.read i).map f := by
  simp [Memory.patch, Memory.read]

/-! ### The memory in the operations of the unit -/

@[simp] theorem State.modCap_cap (s : State) (f : Cap → Cap) : (s.modCap f).cap = f s.cap := rfl

@[simp] theorem State.emitTo_cap (s : State) (p : Port) (r : Record) : (s.emitTo p r).cap = s.cap := rfl

@[simp] theorem State.alertOn_cap (s : State) (p : Port) (b : Nat) : (s.alertOn p b).cap = s.cap := rfl

@[simp] theorem State.emitCapture_cap (s : State) (t : Stamp) (r : Request) (o : CapOutcome) :
    (s.emitCapture t r o).cap = s.cap := rfl

/-- The end of filling keeps the words held (R166). -/
@[simp] theorem State.endFilling_mem (s : State) (t : Stamp) (o : CapOutcome) : (s.endFilling t o).cap.mem = s.cap.mem := by
  unfold State.endFilling
  split <;> rfl

/-- A grant empties the memory or leaves it as it was (R162). -/
theorem State.grant_mem (s : State) (t : Stamp) : (s.grant t).cap.mem = s.cap.mem ∨ (s.grant t).cap.mem = .empty := by
  unfold State.grant
  split
  · split
    · exact .inl rfl
    · refine .inr ?_
      dsimp only
      split
      · rw [State.endFilling_mem]
        rfl
      · rfl
  · exact .inl rfl

theorem State.grant_wf {s : State} (h : s.cap.mem.wf = true) (t : Stamp) : (s.grant t).cap.mem.wf = true := by
  rcases s.grant_mem t with e | e
  · rwa [e]
  · rw [e]
    exact Memory.wf_empty

theorem State.latchAll_wf {s : State} (h : s.cap.mem.wf = true) (t : Stamp) (f : Request → Byte) :
    (s.latchAll t f).cap.mem.wf = true :=
  State.grant_wf (s := s.modCap fun c => { c with requests := c.requests.map fun r => r.latch (f r) }) h t

theorem Cap.closeWindow_wf {c : Cap} (h : c.mem.wf = true) (w : CapWindow) (marks : Half) :
    (c.closeWindow w marks).mem.wf = true := Memory.wf_patch h _ _

theorem State.readyAtCount_mem (s : State) (t : Stamp) (n : Nat) : (s.readyAtCount t n).cap.mem = s.cap.mem := by
  unfold State.readyAtCount
  split
  · exact s.endFilling_mem t .ready
  · rfl

theorem State.noticeOpen_wf {s : State} (h : s.cap.mem.wf = true) (t : Stamp) (σ : Sensor) (c : Cyl) (n : Half) (g : Gain) :
    (s.noticeOpen t σ c n g).cap.mem.wf = true := by
  unfold State.noticeOpen
  split
  · exact h
  · split
    · split
      · rwa [State.endFilling_mem]
      · rename_i hroom
        exact Memory.wf_header (Nat.not_lt.mp hroom) _ _ _ _
    · exact h

theorem State.noticeSample_wf {s : State} (h : s.cap.mem.wf = true) (t : Stamp) (σ : Sensor) (x : Half) :
    (s.noticeSample t σ x).cap.mem.wf = true := by
  unfold State.noticeSample
  split
  · exact h
  · split
    · exact Memory.wf_patch (Memory.wf_push h _) _ _
    · rw [State.endFilling_mem]
      exact Cap.closeWindow_wf h _ _

theorem State.noticeClose_wf {s : State} (h : s.cap.mem.wf = true) (t : Stamp) (σ : Sensor) (a b : Bool) :
    (s.noticeClose t σ a b).cap.mem.wf = true := by
  unfold State.noticeClose
  split
  · exact h
  · rw [State.readyAtCount_mem]
    exact Cap.closeWindow_wf h _ _

theorem State.noticeAbandon_wf {s : State} (h : s.cap.mem.wf = true) (t : Stamp) (σ : Sensor) (b : Bool) :
    (s.noticeAbandon t σ b).cap.mem.wf = true := by
  unfold State.noticeAbandon
  split
  · exact h
  · dsimp only
    split
    · rw [State.readyAtCount_mem]
      exact Cap.closeWindow_wf h _ _
    · exact Cap.closeWindow_wf h _ _

theorem State.capSyncLoss_wf {s : State} (h : s.cap.mem.wf = true) (t : Stamp) : (s.capSyncLoss t).cap.mem.wf = true := by
  unfold State.capSyncLoss
  split
  · exact h
  · split
    · exact h
    · split
      · rw [State.endFilling_mem]
        exact Cap.closeWindow_wf h _ _
      · rwa [State.endFilling_mem]

theorem State.capCrankLoss_wf {s : State} (h : s.cap.mem.wf = true) (t : Stamp) : (s.capCrankLoss t).cap.mem.wf = true := by
  unfold State.capCrankLoss
  split
  · exact h
  · split
    · rwa [State.endFilling_mem]
    · exact h

theorem State.noticePeriod_wf {s : State} (h : s.cap.mem.wf = true) (n : Nat) : (s.noticePeriod n).cap.mem.wf = true := by
  unfold State.noticePeriod
  split
  · exact h
  · split
    · exact Memory.wf_push h _
    · exact h

theorem State.noticeGapEnd_wf {s : State} (h : s.cap.mem.wf = true) (t : Stamp) : (s.noticeGapEnd t).cap.mem.wf = true := by
  unfold State.noticeGapEnd
  split
  · exact h
  · split
    · rw [State.readyAtCount_mem]
      exact h
    · exact h

theorem State.capRunList_wf {s : State} (h : s.cap.mem.wf = true) (t : Stamp) : (s.capRunList t).cap.mem.wf = true := by
  unfold State.capRunList
  split
  · exact h
  · split
    · exact h
    · split
      · rw [State.endFilling_mem]
        exact Cap.closeWindow_wf h _ _
      · rwa [State.endFilling_mem]

theorem State.capGeometry_wf {s : State} (h : s.cap.mem.wf = true) (t : Stamp) : (s.capGeometry t).cap.mem.wf = true := by
  unfold State.capGeometry
  exact State.grant_wf (by exact h) t

theorem Cap.freeMemory_wf (c : Cap) : c.freeMemory.mem.wf = true := Memory.wf_empty

/-! ### Latching and arming (R160) -/

/-- A request that does not wait takes no latch. -/
theorem Request.latch_idle {r : Request} (h : r.state ≠ .waiting) (conds : Byte) : r.latch conds = r := if_neg h

/-- A waiting request takes the conditions it names, and is TRIGGERED exactly when all it names are latched. -/
theorem Request.latch_waiting {r : Request} (h : r.state = .waiting) (conds : Byte) :
    r.latch conds =
      { r with
        latched := r.latched ||| (conds &&& r.named)
        state := if r.latched ||| (conds &&& r.named) = r.named then .triggered else .waiting } := if_pos h

/-- Latching never makes a request ACTIVE. -/
theorem Request.latch_active {r : Request} {conds : Byte} : (r.latch conds).state = .active ↔ r.state = .active := by
  by_cases h : r.state = .waiting
  · rw [Request.latch_waiting h, h]
    dsimp only
    split <;> simp
  · rw [Request.latch_idle h]

/-! ### The grant rule (R162) -/

/-- The request granted is TRIGGERED, stands in the list, and no port of a higher rank has a TRIGGERED request. -/
theorem Cap.nextGrant_spec {c : Cap} {r : Request} (h : c.nextGrant = some r) :
    r ∈ c.requests ∧ r.state = .triggered := by
  have key : ∀ p, (c.requests.find? fun q => decide (q.port = p) && decide (q.state = .triggered)) = some r →
      r ∈ c.requests ∧ r.state = .triggered := by
    intro p hp
    have h1 := List.find?_some hp
    simp only [Bool.and_eq_true, decide_eq_true_eq] at h1
    exact ⟨List.mem_of_find?_eq_some hp, h1.2⟩
  simp only [Cap.nextGrant, Option.or_eq_some_iff] at h
  obtain h | ⟨-, h | ⟨-, h⟩⟩ := h
  · exact key _ h
  · exact key _ h
  · exact key _ h

/-- Nothing is granted exactly when no request is TRIGGERED. -/
theorem Cap.nextGrant_none {c : Cap} : c.nextGrant = none ↔ ∀ r ∈ c.requests, r.state ≠ .triggered := by
  simp only [Cap.nextGrant, Option.or_eq_none_iff, List.find?_eq_none, Bool.and_eq_true, decide_eq_true_eq, not_and]
  constructor
  · rintro ⟨ha, hb, hc⟩ r hr
    cases hp : r.port
    · exact ha r hr hp
    · exact hb r hr hp
    · exact hc r hr hp
  · intro h
    exact ⟨fun r hr _ => h r hr, fun r hr _ => h r hr, fun r hr _ => h r hr⟩

/-- With no request TRIGGERED the grant rule does nothing. -/
theorem State.grant_idle {s : State} (h : ∀ r ∈ s.cap.requests, r.state ≠ .triggered) (t : Stamp) : s.grant t = s := by
  unfold State.grant
  rw [Cap.nextGrant_none.mpr h]
  simp

/-- While the unit is not FREE the grant rule does nothing. -/
theorem State.grant_busy {s : State} (h : s.cap.unit ≠ .free) (t : Stamp) : s.grant t = s := if_neg h

/-! ### Handles (R159) -/

theorem handleAfter_range {h : Nat} (h1 : 1 ≤ h) (h2 : h ≤ 255) : 1 ≤ handleAfter h ∧ handleAfter h ≤ 255 := by
  unfold handleAfter
  split <;> omega

theorem Cap.freeFrom_range (c : Cap) (k : Nat) {h : Nat} (h1 : 1 ≤ h) (h2 : h ≤ 255) :
    1 ≤ c.freeFrom k h ∧ c.freeFrom k h ≤ 255 := by
  induction k generalizing h with
  | zero => exact ⟨h1, h2⟩
  | succ k ih =>
    rw [Cap.freeFrom]
    split
    · exact ih (handleAfter_range h1 h2).1 (handleAfter_range h1 h2).2
    · exact ⟨h1, h2⟩

/-- A new handle is one of the handles, 1 to 255. -/
theorem Cap.newHandle_range {c : Cap} (h1 : 1 ≤ c.nextHandle) (h2 : c.nextHandle ≤ 255) :
    1 ≤ c.newHandle ∧ c.newHandle ≤ 255 := c.freeFrom_range 7 h1 h2

end Sys2Proof.Machine
end

