-- ==== Sys2Proof/Laws/Frames.lean ====
section
/-! SUPPORT. Frames: which blocks each shared operation leaves as they stand. A frame lists the fields that the operation does not
write; the narrower frames extend the wider ones. -/

namespace Sys2Proof.Machine

variable {s u w : State}

/-- What an apply leaves alone: the reset line, the time and the waiting commands. -/
structure ApplyFrame (s u : State) : Prop where
  running : u.running = s.running
  startUp : u.startUp = s.startUp
  timebase : u.timebase = s.timebase
  pending : u.pending = s.pending

/-- What a change of the sync state leaves alone beside: OPS, KNA and CFG. -/
structure SyncFrame (s u : State) : Prop extends ApplyFrame s u where
  ops : u.ops = s.ops
  kna : u.kna = s.kna
  cfg : u.cfg = s.cfg

/-- What the raising of layout events leaves alone: ADEC, OPS and CFG. -/
structure EventFrame (s u : State) : Prop extends ApplyFrame s u where
  adec : u.adec = s.adec
  ops : u.ops = s.ops
  cfg : u.cfg = s.cfg

/-- What a decision of an assessor leaves alone beside: the slot map and the spark records. -/
structure AssessFrame (s u : State) : Prop extends EventFrame s u where
  smap : u.smap = s.smap
  igsu : u.igsu = s.igsu

/-- What a completion leaves alone beside: the assessors and the knock front end. -/
structure DoneFrame (s u : State) : Prop extends AssessFrame s u where
  mfa : u.mfa = s.mfa
  kfe : u.kfe = s.kfe
  kna : u.kna = s.kna

/-- What the capture unit leaves alone: everything but itself and the ports. -/
structure CapFrame (s u : State) : Prop extends DoneFrame s u where
  cyt : u.cyt = s.cyt

/-- What a record or an alert leaves alone: everything but the ports. -/
structure PortFrame (s u : State) : Prop extends CapFrame s u where
  cap : u.cap = s.cap

/-! ### Frames compose -/

theorem ApplyFrame.trans (h : ApplyFrame s u) (k : ApplyFrame u w) : ApplyFrame s w :=
  ⟨k.running.trans h.running, k.startUp.trans h.startUp, k.timebase.trans h.timebase, k.pending.trans h.pending⟩

theorem SyncFrame.trans (h : SyncFrame s u) (k : SyncFrame u w) : SyncFrame s w :=
  ⟨h.toApplyFrame.trans k.toApplyFrame, k.ops.trans h.ops, k.kna.trans h.kna, k.cfg.trans h.cfg⟩

theorem EventFrame.trans (h : EventFrame s u) (k : EventFrame u w) : EventFrame s w :=
  ⟨h.toApplyFrame.trans k.toApplyFrame, k.adec.trans h.adec, k.ops.trans h.ops, k.cfg.trans h.cfg⟩

theorem AssessFrame.trans (h : AssessFrame s u) (k : AssessFrame u w) : AssessFrame s w :=
  ⟨h.toEventFrame.trans k.toEventFrame, k.smap.trans h.smap, k.igsu.trans h.igsu⟩

theorem DoneFrame.trans (h : DoneFrame s u) (k : DoneFrame u w) : DoneFrame s w :=
  ⟨h.toAssessFrame.trans k.toAssessFrame, k.mfa.trans h.mfa, k.kfe.trans h.kfe, k.kna.trans h.kna⟩

theorem CapFrame.trans (h : CapFrame s u) (k : CapFrame u w) : CapFrame s w :=
  ⟨h.toDoneFrame.trans k.toDoneFrame, k.cyt.trans h.cyt⟩

theorem PortFrame.trans (h : PortFrame s u) (k : PortFrame u w) : PortFrame s w :=
  ⟨h.toCapFrame.trans k.toCapFrame, k.cap.trans h.cap⟩

theorem PortFrame.refl (s : State) : PortFrame s s := ⟨⟨⟨⟨⟨⟨rfl, rfl, rfl, rfl⟩, rfl, rfl, rfl⟩, rfl, rfl⟩, rfl, rfl, rfl⟩, rfl⟩, rfl⟩

theorem CapFrame.refl (s : State) : CapFrame s s := (PortFrame.refl s).toCapFrame

theorem DoneFrame.refl (s : State) : DoneFrame s s := (CapFrame.refl s).toDoneFrame

theorem AssessFrame.refl (s : State) : AssessFrame s s := (DoneFrame.refl s).toAssessFrame

theorem EventFrame.refl (s : State) : EventFrame s s := (AssessFrame.refl s).toEventFrame

theorem SyncFrame.refl (s : State) : SyncFrame s s := ⟨⟨rfl, rfl, rfl, rfl⟩, rfl, rfl, rfl⟩

theorem DoneFrame.toSyncFrame (h : DoneFrame s u) : SyncFrame s u := ⟨h.toApplyFrame, h.ops, h.kna, h.cfg⟩

/-! ### The updates -/

theorem State.setPorts_frame (s : State) (x : PerPort PortState) : PortFrame s (s.setPorts x) :=
  ⟨⟨⟨⟨⟨⟨rfl, rfl, rfl, rfl⟩, rfl, rfl, rfl⟩, rfl, rfl⟩, rfl, rfl, rfl⟩, rfl⟩, rfl⟩

theorem State.setPort_frame (s : State) (p : Port) (x : PortState) : PortFrame s (s.setPort p x) := s.setPorts_frame _

theorem State.setCap_frame (s : State) (x : Cap) : CapFrame s (s.setCap x) :=
  ⟨⟨⟨⟨⟨rfl, rfl, rfl, rfl⟩, rfl, rfl, rfl⟩, rfl, rfl⟩, rfl, rfl, rfl⟩, rfl⟩

theorem State.modCap_frame (s : State) (f : Cap → Cap) : CapFrame s (s.modCap f) := s.setCap_frame _

theorem State.modCyt_frame (s : State) (f : Cyt → Cyt) : DoneFrame s (s.modCyt f) :=
  ⟨⟨⟨⟨rfl, rfl, rfl, rfl⟩, rfl, rfl, rfl⟩, rfl, rfl⟩, rfl, rfl, rfl⟩

theorem State.setMfa_frame (s : State) (x : Mfa) : AssessFrame s (s.setMfa x) :=
  ⟨⟨⟨rfl, rfl, rfl, rfl⟩, rfl, rfl, rfl⟩, rfl, rfl⟩

theorem State.setKfe_frame (s : State) (x : Kfe) : AssessFrame s (s.setKfe x) :=
  ⟨⟨⟨rfl, rfl, rfl, rfl⟩, rfl, rfl, rfl⟩, rfl, rfl⟩

theorem State.setKna_frame (s : State) (x : Kna) : AssessFrame s (s.setKna x) :=
  ⟨⟨⟨rfl, rfl, rfl, rfl⟩, rfl, rfl, rfl⟩, rfl, rfl⟩

theorem State.setSmap_frame (s : State) (x : Smap) : EventFrame s (s.setSmap x) := ⟨⟨rfl, rfl, rfl, rfl⟩, rfl, rfl, rfl⟩

theorem State.setIgsu_frame (s : State) (x : PerCyl (Option SparkRecord)) : EventFrame s (s.setIgsu x) :=
  ⟨⟨rfl, rfl, rfl, rfl⟩, rfl, rfl, rfl⟩

theorem State.setAdec_frame (s : State) (x : Adec) : SyncFrame s (s.setAdec x) := ⟨⟨rfl, rfl, rfl, rfl⟩, rfl, rfl, rfl⟩

/-! ### Records and alerts -/

theorem State.emit_frame (s : State) (r : Record) : PortFrame s (s.emit r) := s.setPorts_frame _

theorem State.emitTo_frame (s : State) (p : Port) (r : Record) : PortFrame s (s.emitTo p r) := s.setPort_frame _ _

theorem State.alertAll_frame (s : State) (b : Nat) : PortFrame s (s.alertAll b) := s.setPorts_frame _

theorem State.alertOn_frame (s : State) (p : Port) (b : Nat) : PortFrame s (s.alertOn p b) := s.setPort_frame _ _

theorem State.emitSync_frame (s : State) (t : Stamp) (c : SyncCause) : PortFrame s (s.emitSync t c) :=
  (s.emit_frame _).trans (State.alertAll_frame _ _)

theorem State.emitFor_frame (s : State) (t : Stamp) (c : Cyl) (n : Half) (b : Option RecordBody) :
    PortFrame s (s.emitFor t c n b) := by
  unfold State.emitFor
  split
  · exact .refl s
  · exact s.emit_frame _

theorem State.emitCapture_frame (s : State) (t : Stamp) (r : Request) (o : CapOutcome) : PortFrame s (s.emitCapture t r o) :=
  (s.emitTo_frame _ _).trans (State.alertOn_frame _ _ _)

/-! ### The capture unit -/

theorem State.endFilling_frame (s : State) (t : Stamp) (o : CapOutcome) : CapFrame s (s.endFilling t o) := by
  unfold State.endFilling
  split
  · exact .refl s
  · exact (s.modCap_frame _).trans (State.emitCapture_frame _ _ _ _).toCapFrame

theorem State.grant_frame (s : State) (t : Stamp) : CapFrame s (s.grant t) := by
  unfold State.grant
  split
  · split
    · exact .refl s
    · dsimp only
      split
      · exact (s.modCap_frame _).trans (State.endFilling_frame _ _ _)
      · exact s.modCap_frame _
  · exact .refl s

theorem State.latchAll_frame (s : State) (t : Stamp) (f : Request → Byte) : CapFrame s (s.latchAll t f) :=
  (s.modCap_frame _).trans (State.grant_frame _ _)

theorem State.noticeCompletion_frame (s : State) (t : Stamp) (c : Cyl) (m : MisfireVerdict) (k : KnockVerdict) :
    CapFrame s (s.noticeCompletion t c m k) := s.latchAll_frame _ _

theorem State.noticeFullSync_frame (s : State) (t : Stamp) : CapFrame s (s.noticeFullSync t) := s.latchAll_frame _ _

theorem State.noticeOpen_frame (s : State) (t : Stamp) (σ : Sensor) (c : Cyl) (n : Half) (g : Gain) :
    CapFrame s (s.noticeOpen t σ c n g) := by
  unfold State.noticeOpen
  split
  · exact .refl s
  · split
    · split
      · exact s.endFilling_frame _ _
      · exact s.modCap_frame _
    · exact .refl s

theorem State.noticeSample_frame (s : State) (t : Stamp) (σ : Sensor) (x : Half) : CapFrame s (s.noticeSample t σ x) := by
  unfold State.noticeSample
  split
  · exact .refl s
  · split
    · exact s.modCap_frame _
    · exact (s.modCap_frame _).trans (State.endFilling_frame _ _ _)

theorem State.readyAtCount_frame (s : State) (t : Stamp) (n : Nat) : CapFrame s (s.readyAtCount t n) := by
  unfold State.readyAtCount
  split
  · exact s.endFilling_frame _ _
  · exact .refl s

theorem State.noticeClose_frame (s : State) (t : Stamp) (σ : Sensor) (a b : Bool) : CapFrame s (s.noticeClose t σ a b) := by
  unfold State.noticeClose
  split
  · exact .refl s
  · exact (s.modCap_frame _).trans (State.readyAtCount_frame _ _ _)

theorem State.noticeAbandon_frame (s : State) (t : Stamp) (σ : Sensor) (b : Bool) : CapFrame s (s.noticeAbandon t σ b) := by
  unfold State.noticeAbandon
  split
  · exact .refl s
  · dsimp only
    split
    · exact (s.modCap_frame _).trans (State.readyAtCount_frame _ _ _)
    · exact s.modCap_frame _

theorem State.capSyncLoss_frame (s : State) (t : Stamp) : CapFrame s (s.capSyncLoss t) := by
  unfold State.capSyncLoss
  split
  · exact .refl s
  · split
    · exact .refl s
    · split
      · exact (s.modCap_frame _).trans (State.endFilling_frame _ _ _)
      · exact s.endFilling_frame _ _

theorem State.capCrankLoss_frame (s : State) (t : Stamp) : CapFrame s (s.capCrankLoss t) := by
  unfold State.capCrankLoss
  split
  · exact .refl s
  · split
    · exact s.endFilling_frame _ _
    · exact .refl s

theorem State.noticePeriod_frame (s : State) (n : Nat) : CapFrame s (s.noticePeriod n) := by
  unfold State.noticePeriod
  split
  · exact .refl s
  · split
    · exact s.modCap_frame _
    · exact .refl s

theorem State.noticeGapEnd_frame (s : State) (t : Stamp) : CapFrame s (s.noticeGapEnd t) := by
  unfold State.noticeGapEnd
  split
  · exact .refl s
  · split
    · exact (s.modCap_frame _).trans (State.readyAtCount_frame _ _ _)
    · exact s.modCap_frame _

theorem State.capRunList_frame (s : State) (t : Stamp) : CapFrame s (s.capRunList t) := by
  unfold State.capRunList
  split
  · exact .refl s
  · split
    · exact .refl s
    · split
      · exact (s.modCap_frame _).trans (State.endFilling_frame _ _ _)
      · exact s.endFilling_frame _ _

theorem State.capGeometry_frame (s : State) (t : Stamp) : CapFrame s (s.capGeometry t) :=
  (s.modCap_frame _).trans (State.grant_frame _ _)

/-! ### Decisions and completion -/

theorem State.complete_frame (s : State) (t : Stamp) (i : SlotInst) (m : MisfirePart) (k : KnockPart) :
    DoneFrame s (s.complete t i m k) := by
  unfold State.complete
  exact (((s.modCyt_frame _).trans (State.emit_frame _ _).toDoneFrame).trans
    (State.noticeCompletion_frame _ _ _ _ _).toDoneFrame).trans (State.modCyt_frame _ _)

theorem State.tryComplete_frame (s : State) (t : Stamp) (i : Nat) (n : Half) : DoneFrame s (s.tryComplete t i n) := by
  unfold State.tryComplete
  split
  · exact .refl s
  · split
    · exact s.complete_frame _ _ _ _
    · exact .refl s

/-- A decision of KNA writes KNA, the table, the ports and the capture unit, and no other block. -/
theorem State.applyKnock_frame (s : State) (t : Stamp) (i : SlotInst) (d : KnockDecision) :
    AssessFrame s (s.applyKnock t i d) ∧ (s.applyKnock t i d).mfa = s.mfa ∧ (s.applyKnock t i d).kfe = s.kfe := by
  have h := ((State.emitFor_frame (s.setKna d.kna) t i.cyl i.cycle d.record).toDoneFrame.trans
    (State.modCyt_frame _ fun y => y.write i.slot i.cycle fun j => { j with knock := some ⟨d.judged, (d.kna.cyl.get i.cyl).ref⟩ })).trans
    (State.tryComplete_frame _ t i.slot i.cycle)
  exact ⟨(s.setKna_frame d.kna).trans h.toAssessFrame, h.mfa, h.kfe⟩

theorem State.tryKnock_frame (s : State) (t : Stamp) (i : Nat) (n : Half) :
    AssessFrame s (s.tryKnock t i n) ∧ (s.tryKnock t i n).mfa = s.mfa ∧ (s.tryKnock t i n).kfe = s.kfe := by
  unfold State.tryKnock
  split
  · exact ⟨.refl s, rfl, rfl⟩
  · split
    · split
      · exact s.applyKnock_frame _ _ _
      · exact ⟨.refl s, rfl, rfl⟩
    · exact ⟨.refl s, rfl, rfl⟩

/-- A decision of MFA writes MFA, the table, the ports and the capture unit, and no other block. -/
theorem State.applyMisfire_frame (s : State) (t : Stamp) (i : SlotInst) (j : MisfireJudged) :
    AssessFrame s (s.applyMisfire t i j) ∧ (s.applyMisfire t i j).kfe = s.kfe ∧ (s.applyMisfire t i j).kna = s.kna := by
  have e : ∀ x : State, PortFrame x
      (match j.verdict, j.index with
       | .misfire, some y => x.emit
          { cyl := some i.cyl, cycle := i.cycle, stamp := t,
            body := .misfire y.d y.limit ((s.mfa.counts.get i.cyl).after s.cfg.active j.verdict).cons i.snap.set i.snap.stale }
       | _, _ => x) := by
    intro x
    split
    · exact x.emit_frame _
    · exact .refl x
  have f : ∀ (x : State) (b : Bool) (r : Record), PortFrame x (if b then x.emit r else x) := by
    intro x b r
    cases b
    · exact .refl x
    · exact x.emit_frame r
  have h := (((e (s.modMfa fun m =>
      { m with counts := m.counts.set i.cyl ((s.mfa.counts.get i.cyl).after s.cfg.active j.verdict),
               history := historyAfter m.history j,
               last := some ⟨i.slot, i.cycle, (i.spark.bind (·.cut)).isSome⟩ })).trans
    (f _ ((s.mfa.counts.get i.cyl).persists s.cfg.active j.verdict)
      { cyl := some i.cyl, cycle := i.cycle, stamp := t,
        body := .persist ((s.mfa.counts.get i.cyl).after s.cfg.active j.verdict).cons s.cfg.active.consLimit })).toDoneFrame.trans
    (State.modCyt_frame _ fun y => y.write i.slot i.cycle fun k =>
      { k with misfire := some ⟨j, ((s.mfa.counts.get i.cyl).after s.cfg.active j.verdict).cons,
                                ((s.mfa.counts.get i.cyl).after s.cfg.active j.verdict).block⟩ })).trans
    (State.tryComplete_frame _ t i.slot i.cycle)
  exact ⟨(s.setMfa_frame _).trans h.toAssessFrame, h.kfe, h.kna⟩

theorem State.decideMisfire_frame (s : State) (t : Stamp) (j : Nat) (c : Half) :
    AssessFrame s (s.decideMisfire t j c) ∧ (s.decideMisfire t j c).kfe = s.kfe ∧ (s.decideMisfire t j c).kna = s.kna := by
  unfold State.decideMisfire
  dsimp only
  split
  · exact ⟨.refl s, rfl, rfl⟩
  · split
    · exact ⟨.refl s, rfl, rfl⟩
    · exact s.applyMisfire_frame _ _ _

theorem State.segmentBoundary_frame (s : State) (t : Stamp) (j : Nat) (c : Half) :
    AssessFrame s (s.segmentBoundary t j c) ∧ (s.segmentBoundary t j c).kfe = s.kfe ∧
      (s.segmentBoundary t j c).kna = s.kna := by
  have h := State.decideMisfire_frame (s.modMfa fun m => { m with segments := m.segments.map (·.close t) }) t j c
  exact ⟨((s.setMfa_frame _).trans h.1).trans (State.setMfa_frame _ _), h.2.1, h.2.2⟩

theorem State.forceWarmup_frame (t : Stamp) (s : State) (n : Nat × Half) :
    AssessFrame s (State.forceWarmup t s n) ∧ (State.forceWarmup t s n).kfe = s.kfe ∧
      (State.forceWarmup t s n).kna = s.kna := by
  unfold State.forceWarmup
  split
  · exact ⟨.refl s, rfl, rfl⟩
  · split
    · exact ⟨.refl s, rfl, rfl⟩
    · exact s.applyMisfire_frame _ _ _

theorem State.blockBoundary_frame (s : State) (t : Stamp) : AssessFrame s (s.blockBoundary t) := by
  have e : ∀ (l : List Cyl) (x : State), PortFrame x (l.foldl (State.emitRate t) x) := by
    intro l
    induction l with
    | nil => exact PortFrame.refl
    | cons c l ih =>
      intro x
      refine PortFrame.trans ?_ (ih _)
      unfold State.emitRate
      split
      · exact x.emit_frame _
      · exact .refl x
  unfold State.blockBoundary
  split
  · exact (e _ s).toAssessFrame.trans (State.setMfa_frame _ _)
  · exact s.setMfa_frame _

/-! ### Windows -/

theorem State.autoRange_frame (s : State) (t : Stamp) (σ : Sensor) (k : KnockIntegrator) :
    AssessFrame s (s.autoRange t σ k) := by
  unfold State.autoRange
  dsimp only
  split
  · exact (s.setKfe_frame _).trans (State.emitFor_frame _ _ _ _ _).toAssessFrame
  · exact .refl s

theorem State.modChain_frame (s : State) (σ : Sensor) (f : SensorChain → SensorChain) : AssessFrame s (s.modChain σ f) :=
  s.setKfe_frame _

theorem State.knockOpen_frame (s : State) (t : Stamp) (i : Nat) (c : Half) : AssessFrame s (s.knockOpen t i c) :=
  (s.modChain_frame _ _).trans (State.noticeOpen_frame _ _ _ _ _ _).toAssessFrame

theorem State.guardOpen_frame (s : State) (i : Nat) (c : Half) : AssessFrame s (s.guardOpen i c) := by
  unfold State.guardOpen
  exact s.modChain_frame _ _

theorem State.knockClose_frame (s : State) (t : Stamp) (i : Nat) : AssessFrame s (s.knockClose t i) := by
  unfold State.knockClose
  dsimp only
  split
  · exact .refl s
  · exact ((((s.autoRange_frame _ _ _).trans (State.noticeClose_frame _ _ _ _ _).toAssessFrame).trans
      (State.modChain_frame _ _ _)).trans (State.modCyt_frame _ _).toAssessFrame).trans (State.tryKnock_frame _ _ _ _).1

theorem State.guardClose_frame (s : State) (t : Stamp) (i : Nat) : AssessFrame s (s.guardClose t i) := by
  unfold State.guardClose
  dsimp only
  split
  · exact .refl s
  · exact ((s.modChain_frame _ _).trans (State.modCyt_frame _ _).toAssessFrame).trans (State.tryKnock_frame _ _ _ _).1

theorem State.abandonSensor_frame (s : State) (t : Stamp) (σ : Sensor) (b : Bool) :
    AssessFrame s (s.abandonSensor t σ b) ∧ (s.abandonSensor t σ b).mfa = s.mfa ∧ (s.abandonSensor t σ b).kna = s.kna ∧
      (s.abandonSensor t σ b).cyt = s.cyt ∧
      (s.abandonSensor t σ b).kfe = (s.modChain σ fun c => { c with knock := none, guard := none }).kfe := by
  unfold State.abandonSensor
  dsimp only
  split
  · have h := State.noticeAbandon_frame (s.modChain σ fun c => { c with knock := none, guard := none }) t σ b
    exact ⟨(s.modChain_frame _ _).trans h.toAssessFrame, h.mfa, h.kna, h.cyt, h.kfe⟩
  · exact ⟨s.modChain_frame _ _, rfl, rfl, rfl, rfl⟩

/-- R98: abandoning closes every integrator and leaves stage gains, filters, gains in use and the sample instant. -/
theorem State.abandonWindows_frame (s : State) (t : Stamp) (b : Bool) :
    AssessFrame s (s.abandonWindows t b) ∧ (s.abandonWindows t b).mfa = s.mfa ∧ (s.abandonWindows t b).kna = s.kna ∧
      (s.abandonWindows t b).cyt = s.cyt ∧
      (s.abandonWindows t b).kfe = { s.kfe with chain := s.kfe.chain.map fun c => { c with knock := none, guard := none } } := by
  have h := s.abandonSensor_frame t .ks0 b
  have k := State.abandonSensor_frame (s.abandonSensor t .ks0 b) t .ks1 b
  refine ⟨h.1.trans k.1, k.2.1.trans h.2.1, k.2.2.1.trans h.2.2.1, k.2.2.2.1.trans h.2.2.2.1, ?_⟩
  refine k.2.2.2.2.trans ?_
  simp [State.modChain, h.2.2.2.2, PerSensor.set, PerSensor.get, PerSensor.map]

/-- A sample writes the knock front end, the capture unit and the ports, and no other block. -/
theorem State.sampleSensor_frame (s : State) (t : Stamp) (σ : Sensor) (x : Half) :
    AssessFrame s (s.sampleSensor t σ x) ∧ (s.sampleSensor t σ x).mfa = s.mfa ∧ (s.sampleSensor t σ x).kna = s.kna ∧
      (s.sampleSensor t σ x).cyt = s.cyt := by
  unfold State.sampleSensor
  dsimp only
  split
  · have h := State.noticeSample_frame (s.modChain σ fun c => c.sample (s.cfg.active.centre σ) x) t σ x
    exact ⟨(s.modChain_frame _ _).trans h.toAssessFrame, h.mfa, h.kna, h.cyt⟩
  · exact ⟨s.modChain_frame _ _, rfl, rfl, rfl⟩

/-! ### Layout events -/

theorem State.sparkOpen_frame (s : State) (i : Nat) (c : Half) : EventFrame s (s.sparkOpen i c) := by
  unfold State.sparkOpen
  exact ((s.setSmap_frame _).trans (State.setIgsu_frame _ _)).trans (State.modCyt_frame _ _).toEventFrame

theorem State.sparkClose_frame (s : State) (t : Stamp) (i : Nat) : EventFrame s (s.sparkClose t i) := by
  unfold State.sparkClose
  dsimp only
  split
  · exact .refl s
  · exact ((s.setIgsu_frame _).trans (State.modCyt_frame _ _).toEventFrame).trans (State.tryKnock_frame _ _ _ _).1.toEventFrame

theorem State.slotBoundary_frame (s : State) (i : Nat) (c : Half) : EventFrame s (s.slotBoundary i c) := by
  unfold State.slotBoundary
  dsimp only
  split
  · exact (s.setSmap_frame _).trans (State.modCyt_frame _ _).toEventFrame
  · exact s.setSmap_frame _

/-- A layout event leaves ADEC, OPS and CFG alone, and the reset line, the time and the waiting commands. -/
theorem State.raise_frame (t : Stamp) (c : Half) (s : State) (e : LayoutEvent) : EventFrame s (State.raise t c s e) := by
  unfold State.raise
  dsimp only
  split
  · exact (s.segmentBoundary_frame _ _ _).1.toEventFrame
  · exact s.slotBoundary_frame _ _
  · exact s.sparkOpen_frame _ _
  · split
    · exact s.sparkClose_frame _ _
    · exact .refl s
  · split
    · exact (s.knockOpen_frame _ _ _).toEventFrame
    · exact .refl s
  · split
    · exact (s.knockClose_frame _ _).toEventFrame
    · exact .refl s
  · split
    · exact (s.guardOpen_frame _ _).toEventFrame
    · exact .refl s
  · split
    · exact (s.guardClose_frame _ _).toEventFrame
    · exact .refl s

/-- Raising any layout events leaves ADEC, OPS and CFG alone. -/
theorem State.raiseAll_frame (t : Stamp) (c : Half) (l : List LayoutEvent) (s : State) : EventFrame s (s.raiseAll t c l) := by
  induction l generalizing s with
  | nil => exact .refl s
  | cons a l ih => exact (State.raise_frame t c s a).trans (ih _)

/-! ### Sync changes and applies -/

theorem State.syncLoss_frame (s : State) (t : Stamp) :
    EventFrame s (s.syncLoss t) ∧ (s.syncLoss t).kna = s.kna := by
  have a : EventFrame s ((((s.setSmap { cursor := none, marks := .replicate 6 false }).setIgsu
      ⟨none, none, none, none, none, none⟩).modMfa Mfa.loseSync)) :=
    ((s.setSmap_frame _).trans (State.setIgsu_frame _ _)).trans (State.setMfa_frame _ _).toEventFrame
  have b := State.abandonWindows_frame ((((s.setSmap { cursor := none, marks := .replicate 6 false }).setIgsu
      ⟨none, none, none, none, none, none⟩).modMfa Mfa.loseSync)) t false
  have c := State.capSyncLoss_frame (State.modCyt ((((s.setSmap { cursor := none, marks := .replicate 6 false }).setIgsu
      ⟨none, none, none, none, none, none⟩).modMfa Mfa.loseSync).abandonWindows t false) Cyt.discard) t
  exact ⟨((a.trans b.1.toEventFrame).trans (State.modCyt_frame _ _).toEventFrame).trans c.toEventFrame,
    c.kna.trans b.2.2.1⟩

theorem State.lossEvents_frame (s : State) (t : Stamp) (b : SyncState) :
    EventFrame s (s.lossEvents t b) ∧ (s.lossEvents t b).kna = s.kna := by
  have h1 : ∀ (x : State) (p : Prop) [Decidable p], EventFrame x (if p then x.syncLoss t else x) ∧
      (if p then x.syncLoss t else x).kna = x.kna := by
    intro x p _
    split
    · exact x.syncLoss_frame t
    · exact ⟨.refl x, rfl⟩
  have h2 : ∀ (x : State) (p : Prop) [Decidable p], EventFrame x (if p then x.capCrankLoss t else x) ∧
      (if p then x.capCrankLoss t else x).kna = x.kna := by
    intro x p _
    split
    · exact ⟨(x.capCrankLoss_frame t).toEventFrame, (x.capCrankLoss_frame t).kna⟩
    · exact ⟨.refl x, rfl⟩
  have h3 : ∀ (x : State) (p : Prop) [Decidable p], EventFrame x (if p then x.modMfa Mfa.halt else x) ∧
      (if p then x.modMfa Mfa.halt else x).kna = x.kna := by
    intro x p _
    split
    · exact ⟨(x.setMfa_frame _).toEventFrame, rfl⟩
    · exact ⟨.refl x, rfl⟩
  unfold State.lossEvents
  dsimp only
  exact ⟨((h1 s _).1.trans (h2 _ _).1).trans (h3 _ _).1, ((h3 _ _).2.trans (h2 _ _).2).trans (h1 s _).2⟩

/-- R20, R21: a change of the sync state leaves ADEC exactly as the caller set it, and OPS, KNA and CFG as they stand. -/
theorem State.changeSync_frame (s : State) (t : Stamp) (a : Adec) (c : SyncCause) :
    SyncFrame s (s.changeSync t a c) ∧ (s.changeSync t a c).adec = a := by
  have e := State.emitSync_frame (s.setAdec a) t c
  have l := State.lossEvents_frame ((s.setAdec a).emitSync t c) t s.adec.sync
  refine ⟨?_, l.1.adec.trans e.adec⟩
  exact ((s.setAdec_frame a).trans e.toDoneFrame.toSyncFrame).trans ⟨l.1.toApplyFrame, l.1.ops, l.2, l.1.cfg⟩

theorem State.applyAdec_frame (s : State) (t : Stamp) (c : CommitClass) (old : Image) :
    SyncFrame s (s.applyAdec t c old) := by
  have h1 : ∀ (x : State) (p : Prop) [Decidable p] (a : Adec), SyncFrame x
      (if p then if x.adec.sync = .halted then x.setAdec a else x.changeSync t (a.enterSeek none) .commit else x) := by
    intro x p _ a
    split
    · split
      · exact x.setAdec_frame a
      · exact (x.changeSync_frame _ _ _).1
    · exact .refl x
  have h2 : ∀ (x : State) (p : Prop) [Decidable p], SyncFrame x (if p then x.stallNow t else x) := by
    intro x p _
    split
    · exact (x.changeSync_frame _ _ _).1
    · exact .refl x
  exact (h1 s _ _).trans (h2 _ _)

theorem State.segOffsetApply_frame (s : State) (t : Stamp) :
    AssessFrame s (s.segOffsetApply t) ∧ (s.segOffsetApply t).kfe = s.kfe ∧ (s.segOffsetApply t).kna = s.kna := by
  have e : ∀ (l : List (Nat × Half)) (x : State), AssessFrame x (l.foldl (State.forceWarmup t) x) ∧
      (l.foldl (State.forceWarmup t) x).kfe = x.kfe ∧ (l.foldl (State.forceWarmup t) x).kna = x.kna := by
    intro l
    induction l with
    | nil => exact fun x => ⟨.refl x, rfl, rfl⟩
    | cons a l ih =>
      intro x
      have h := State.forceWarmup_frame t x a
      have k := ih (State.forceWarmup t x a)
      exact ⟨h.1.trans k.1, k.2.1.trans h.2.1, k.2.2.trans h.2.2⟩
  have h := e (s.cyt.pendingList.map fun i => (i.slot, i.cycle)) (s.modMfa fun m => { m with last := none })
  exact ⟨((s.setMfa_frame _).trans h.1).trans (State.setMfa_frame _ _), h.2.1, h.2.2⟩

theorem State.applyPending_none {s : State} (h : s.cfg.pendingCommit = none) (t : Stamp) : s.applyPending t = s := by
  simp [State.applyPending, h]

theorem State.changeSyncApply_none {s : State} (h : s.cfg.pendingCommit = none) (t : Stamp) (a : Adec) (c : SyncCause) :
    s.changeSyncApply t a c = s.changeSync t a c := by
  have := (s.changeSync_frame t a c).1.cfg
  unfold State.changeSyncApply
  split
  · exact State.applyPending_none (by rw [this]; exact h) t
  · rfl

end Sys2Proof.Machine
end

