-- ==== Sys2Proof/Laws/Claims.lean ====
section
/-! SUPPORT. The shared operations in the terms in which claims are stated (Sys2Proof/Safety.lean): records, SYNC records, the sync loss,
the end of a capture and the grant. -/

namespace Sys2Proof.Machine

/-! ### Records -/

/-- One record at one queue, by cases (R145, R146). -/
theorem PortState.offer_eq (r : Record) (x : PortState) : x.offer r = offered r x := by
  unfold offered
  split
  · exact offer_unsubscribed ‹_›
  · rename_i h
    split
    · exact offer_room (by simpa using h) ‹_›
    · exact offer_full (by simpa using h) (by omega)

/-- A SYNC record and its alert change the ports alone (R20). -/
theorem State.emitSync_eq (s : State) (t : Stamp) (c : SyncCause) :
    s.emitSync t c = { s with ports := syncPorts s.ports (syncRecord t s.adec.cycle s.adec.sync c s.adec.polarity) } := by
  unfold State.emitSync State.emit State.alertAll syncPorts
  simp only [State.setPorts, PerPort.map_map, PortState.offer_eq]
  rfl

/-! ### Changes of the sync state -/

/-- A change of the sync state is the new decoder, its SYNC record, and the loss events (R20, R21). -/
theorem State.changeSync_eq (s : State) (t : Stamp) (a : Adec) (c : SyncCause) :
    s.changeSync t a c =
      State.lossEvents { s with adec := a, ports := syncPorts s.ports (syncRecord t a.cycle a.sync c a.polarity) } t
        s.adec.sync := by
  unfold State.changeSync
  rw [State.emitSync_eq]
  rfl

/-- What a sync loss event leaves in every block but the ports and the capture unit (R30, R33, R45, R78, R98, R135). -/
theorem State.syncLoss_lost (s : State) (t : Stamp) :
    LostSync s (s.syncLoss t) ∧ (s.syncLoss t).mfa.counts = s.mfa.counts ∧
      (s.syncLoss t).mfa.blockCycles = s.mfa.blockCycles := by
  unfold State.syncLoss
  generalize hx : (((s.setSmap { cursor := none, marks := .replicate 6 false }).setIgsu
    ⟨none, none, none, none, none, none⟩).modMfa Mfa.loseSync) = x
  have a := x.abandonWindows_frame t false
  have c := State.capSyncLoss_frame ((x.abandonWindows t false).modCyt Cyt.discard) t
  have hm : (((x.abandonWindows t false).modCyt Cyt.discard).capSyncLoss t).mfa = s.mfa.loseSync := by
    rw [c.mfa, show ((x.abandonWindows t false).modCyt Cyt.discard).mfa = x.mfa from a.2.1, ← hx]
    rfl
  subst hx
  refine ⟨⟨c.smap.trans a.1.smap, c.igsu.trans a.1.igsu, by rw [hm]; rfl, c.kfe.trans a.2.2.2.2, ?_⟩, by rw [hm]; rfl,
    by rw [hm]; rfl⟩
  refine c.cyt.trans ?_
  show Cyt.discard (State.abandonWindows _ t false).cyt = _
  rw [a.2.2.2.1]
  rfl

/-! ### Layout events -/

/-- The layout events that a boundary tooth still raises (R81, assumption log 23). -/
theorem Image.mem_stillDue {img : Image} {moved : Bool} {lo hi : Nat} {e : LayoutEvent} :
    e ∈ img.stillDue moved lo hi ↔ e ∈ img.eventsBetween lo hi ∧ (moved = true → e.kind ≠ .segment) := by
  unfold Image.stillDue
  cases moved <;> simp

@[simp] theorem Image.stillDue_unmoved (img : Image) (lo hi : Nat) : img.stillDue false lo hi = img.eventsBetween lo hi := rfl

@[simp] theorem State.raiseAll_nil (s : State) (t : Stamp) (c : Half) : s.raiseAll t c [] = s := rfl

@[simp] theorem State.raiseAll_cons (s : State) (t : Stamp) (c : Half) (e : LayoutEvent) (l : List LayoutEvent) :
    s.raiseAll t c (e :: l) = (State.raise t c s e).raiseAll t c l := rfl

/-! ### Captures -/

/-- The ACTIVE request of a filling capture, when its kind is the one asked for. -/
theorem Cap.fillingAs_eq {c : Cap} {r : Request} (hu : c.unit = .filling) (ha : c.activeRequest = some r) (k : CapKind) :
    c.fillingAs k = if r.kind = k then some r else none := by
  unfold Cap.fillingAs
  rw [if_pos hu, ha]
  by_cases h : r.kind = k <;> simp [h]

theorem Cap.fillingAs_some {c : Cap} {k : CapKind} {r : Request} (h : c.fillingAs k = some r) :
    c.unit = .filling ∧ c.activeRequest = some r ∧ r.kind = k := by
  unfold Cap.fillingAs at h
  split at h
  · rename_i hu
    simp only [Option.filter_eq_some_iff, decide_eq_true_eq] at h
    exact ⟨hu, h⟩
  · cases h

theorem Cap.fillingAs_none {c : Cap} (h : c.unit ≠ .filling) (k : CapKind) : c.fillingAs k = none := if_neg h

theorem Cap.fillingAs_raw {s : State} (h : NoRawCapture s) : s.cap.fillingAs .knockRaw = none := by
  cases hf : s.cap.fillingAs .knockRaw with
  | none => rfl
  | some r => exact absurd (Cap.fillingAs_some hf).2.2 (h (Cap.fillingAs_some hf).1 r (Cap.fillingAs_some hf).2.1)

theorem Cap.recordingOn_none {c : Cap} (h : c.fillingAs .knockRaw = none) (σ : Sensor) : c.recordingOn σ = none := by
  unfold Cap.recordingOn
  rw [h]

theorem Cap.recordingOn_filling {c : Cap} {σ : Sensor} {x : Request × CapWindow} (h : c.recordingOn σ = some x) :
    c.unit = .filling := by
  unfold Cap.recordingOn at h
  split at h
  · exact (Cap.fillingAs_some ‹_›).1
  · cases h

/-- The end of filling of the ACTIVE request: HELD, and the owner told (R166, R167). -/
theorem State.endFilling_eq {s : State} {r : Request} (h : s.cap.activeRequest = some r) (t : Stamp) (o : CapOutcome) :
    s.endFilling t o = s.captureHeld t r o := by
  unfold State.endFilling
  rw [h]
  dsimp only
  unfold State.emitCapture State.captureHeld
  simp only [State.alertOn, State.emitTo, State.setPort_setPort, State.port_setPort_same, PortState.offer_eq]
  rfl

/-- A request re-armed: the conditions that hold at once are latched anew (R169, R173). -/
theorem Request.rearm_eq (s : State) (q : Request) :
    q.rearm (armConds s) =
      { q with latched := armConds s &&& q.named
               state := if armConds s &&& q.named = q.named then .triggered else .waiting } := by
  unfold Request.rearm
  rw [Request.latch_waiting rfl]
  simp

/-! ### The grant -/

/-- A list with distinct handles finds a request of it by its handle. -/
theorem find_handle {l : List Request} (hd : (l.map (·.handle)).Nodup) {r : Request} (hr : r ∈ l) :
    l.find? (fun q => decide (q.handle = r.handle)) = some r := by
  induction l with
  | nil => cases hr
  | cons x xs ih =>
    rw [List.map_cons, List.nodup_cons] at hd
    rcases List.mem_cons.mp hr with rfl | h
    · simp
    · have : x.handle ≠ r.handle := fun e => hd.1 (by rw [e]; exact List.mem_map.mpr ⟨r, h, rfl⟩)
      rw [List.find?_cons_of_neg (by simpa using this)]
      exact ih hd.2 h

/-- The request to be granted is the one of the first port in letter order, and the oldest of its port (R162). -/
theorem Cap.nextGrant_takes {c : Cap} {r : Request} (h : c.nextGrant = some r) : GrantTakes c.requests r := by
  have absent : ∀ p, (c.requests.find? fun q => decide (q.port = p) && decide (q.state = .triggered)) = none →
      ∀ q ∈ c.requests, q.state = .triggered → q.port ≠ p := by
    intro p hp q hq ht hpp
    simpa [ht, hpp] using List.find?_eq_none.mp hp q hq
  have found : ∀ p, (c.requests.find? fun q => decide (q.port = p) && decide (q.state = .triggered)) = some r →
      (∀ q ∈ c.requests, q.state = .triggered → portCode p ≤ portCode q.port) → GrantTakes c.requests r := by
    intro p hp hle
    obtain ⟨h1, b, a, h2, h3⟩ := List.find?_eq_some_iff_append.mp hp
    simp only [Bool.and_eq_true, decide_eq_true_eq] at h1
    refine ⟨h1.2, fun q hq ht => by rw [h1.1]; exact hle q hq ht, b, a, h2, fun q hq ht hpp => ?_⟩
    simpa [ht, hpp, h1.1] using h3 q hq
  unfold Cap.nextGrant at h
  dsimp only at h
  rw [Option.or_eq_some_iff, Option.or_eq_some_iff] at h
  rcases h with h | ⟨ha, h | ⟨hb, h⟩⟩
  · exact found _ h fun q _ _ => Nat.zero_le _
  · refine found _ h fun q hq ht => ?_
    have := absent _ ha q hq ht
    cases hp : q.port <;> simp_all [portCode]
  · refine found _ h fun q hq ht => ?_
    have := absent _ ha q hq ht
    have := absent _ hb q hq ht
    cases hp : q.port <;> simp_all [portCode]

/-- What a grant does: nothing, or the memory goes to the request that R162 names. -/
theorem State.grant_made {s : State} (hd : (s.cap.requests.map (·.handle)).Nodup) (t : Stamp) : GrantMade t s (s.grant t) := by
  refine ⟨fun h => ?_, fun hu ⟨q, hq, ht⟩ => ?_⟩
  · rcases h with h | h
    · exact if_neg h
    · exact State.grant_idle h t
  · obtain ⟨r, hr⟩ := Option.ne_none_iff_exists'.mp fun h : s.cap.nextGrant = none => Cap.nextGrant_none.mp h q hq ht
    refine ⟨r, Cap.nextGrant_takes hr, ?_⟩
    have runs : (r.kind = .tooth ∨ ∃ c ∈ allCyls, r.target = some c ∧ s.cfg.active.hasCyl c = true) ↔
        ¬ (r.kind = .knockRaw ∧ r.target.any s.cfg.active.hasCyl = false) := by
      cases hk : r.kind
      · cases ht : r.target with
        | none => simp
        | some c =>
          have : c ∈ allCyls := by cases c <;> decide
          simp [this]
      · simp
    unfold State.grant State.grantedTo
    rw [if_pos hu, hr]
    dsimp only
    by_cases hx : r.kind = .knockRaw ∧ r.target.any s.cfg.active.hasCyl = false
    · rw [if_pos hx, if_neg fun h => runs.mp h hx, State.endFilling_eq (r := { r with state := .active })]
      · rfl
      · unfold Cap.activeRequest
        show (setRequestState r.handle .active s.cap.requests).find? (fun q => decide (q.handle = r.handle)) = _
        unfold setRequestState
        rw [List.find?_map]
        have : ((fun q => decide (q.handle = r.handle)) ∘ fun q : Request =>
            if q.handle = r.handle then { q with state := .active } else q) = fun q => decide (q.handle = r.handle) := by
          funext q
          simp only [Function.comp]
          split <;> rfl
        rw [this, find_handle hd (Cap.nextGrant_spec hr).1]
        simp
    · rw [if_neg hx, if_pos (runs.mpr hx)]
      rfl

/-- What latching does: the latches, then a grant (R160, R162). -/
theorem State.latchAll_made {s : State} (hd : (s.cap.requests.map (·.handle)).Nodup) (t : Stamp) (conds : Request → Byte) :
    GrantMade t (s.modCap fun c => { c with requests := c.requests.map fun r => r.latch (conds r) }) (s.latchAll t conds) := by
  refine State.grant_made ?_ t
  show ((s.cap.requests.map fun r => r.latch (conds r)).map (·.handle)).Nodup
  have : ((s.cap.requests.map fun r => r.latch (conds r)).map (·.handle)) = s.cap.requests.map (·.handle) := by
    rw [List.map_map]
    refine List.map_congr_left fun r _ => ?_
    simp only [Function.comp, Request.latch]
    split <;> rfl
  rw [this]
  exact hd

/-! ### Edges, abandons and applies at the capture unit -/

/-- The request of a TOOTH capture that fills. -/
theorem Cap.fillingAs_tooth (c : Cap) :
    c.fillingAs .tooth = c.activeRequest.bind fun r => if c.unit ≠ .filling ∨ r.kind ≠ .tooth then none else some r := by
  unfold Cap.fillingAs
  cases hr : c.activeRequest with
  | none => simp
  | some r => by_cases hu : c.unit = .filling <;> by_cases hk : r.kind = .tooth <;> simp [hu, hk]

/-- An accepted period handed to the capture unit (R165, R17). -/
theorem State.noticePeriod_taken (s : State) (t : Stamp) (P : Nat) : s.noticePeriod P = s.toothTaken t P false := by
  unfold State.noticePeriod State.toothTaken
  rw [Cap.fillingAs_tooth]
  cases hr : s.cap.activeRequest with
  | none => rfl
  | some r =>
    dsimp only [Option.bind_some]
    by_cases h : s.cap.unit ≠ .filling ∨ r.kind ≠ .tooth
    · simp only [if_pos h]
    · simp only [if_neg h]
      cases hs : s.cap.started with
      | false =>
        show s = { s with cap := { s.cap with started := false } }
        rw [← hs]
      | true =>
        simp only [Bool.false_eq_true, ↓reduceIte, Bool.true_eq_false, false_and]
        show s.setCap _ = _
        unfold Memory.push Memory.held Config.captureWords
        simp only [Bool.toNat_false, Nat.add_zero]
        split <;> simp only [State.setCap, hs]

/-- The period and the gap end of one accepted edge handed to the capture unit (R165, R17). -/
theorem State.noticeGapEnd_taken (s : State) (t : Stamp) (P : Nat) : (s.noticePeriod P).noticeGapEnd t = s.toothTaken t P true := by
  rw [State.noticePeriod_taken s t]
  unfold State.toothTaken
  cases hr : s.cap.activeRequest with
  | none =>
    unfold State.noticeGapEnd
    rw [Cap.fillingAs_tooth]
    simp [hr]
  | some r =>
    dsimp only
    split
    · next h =>
      unfold State.noticeGapEnd
      rw [Cap.fillingAs_tooth]
      simp [hr, h]
    · next h =>
      cases hs : s.cap.started with
      | false =>
        simp only [↓reduceIte]
        unfold State.noticeGapEnd
        rw [Cap.fillingAs_tooth]
        show (match (s.cap.activeRequest.bind fun r => if s.cap.unit ≠ .filling ∨ r.kind ≠ .tooth then none else some r) with
          | none => _ | some r => _) = _
        rw [hr]
        dsimp only [Option.bind_some]
        rw [if_neg h]
        rfl
      | true =>
        simp only [Bool.false_eq_true, ↓reduceIte, Bool.true_eq_false, false_and, true_and, Bool.toNat_false, Nat.add_zero,
          Bool.toNat_true]
        generalize hw : (if s.cap.mem.words.length < 4096 then s.cap.mem.words ++ [BitVec.ofNat 16 (min 65535 P)]
          else s.cap.mem.words) = ws
        generalize hv : ({ s with cap := { s.cap with mem := ⟨ws⟩, started := true } } : State) = v
        unfold State.noticeGapEnd
        rw [Cap.fillingAs_tooth]
        have ha : v.cap.activeRequest = some r := by rw [← hv]; exact hr
        have hu : v.cap.unit = s.cap.unit := by rw [← hv]
        have hst : v.cap.started = true := by rw [← hv]
        rw [ha, hu]
        dsimp only [Option.bind_some]
        rw [if_neg h]
        dsimp only
        rw [if_pos hst]
        unfold State.readyAtCount
        have hc : (v.modCap fun c => { c with recorded := c.recorded + 1 }) =
            { s with cap := { s.cap with mem := ⟨ws⟩, started := true, recorded := s.cap.recorded + 1 } } := by rw [← hv]; rfl
        rw [hc]
        dsimp only
        split
        · exact State.endFilling_eq (by exact hr) t _
        · rfl

/-- A period handed to the capture unit does not depend on the decoder. -/
theorem State.noticePeriod_adec (s : State) (P : Nat) (a : Adec) : (s.noticePeriod P).setAdec a = (s.setAdec a).noticePeriod P := by
  unfold State.noticePeriod
  rw [show (s.setAdec a).cap = s.cap from rfl]
  cases s.cap.fillingAs .tooth with
  | none => rfl
  | some r =>
    cases h : s.cap.started
    · simp
    · simp
      rfl

/-- A change of the sync state, as a claim says it (R20, R21). -/
theorem State.changeSync_entered (s : State) (t : Stamp) (a : Adec) (c : SyncCause) : s.changeSync t a c = s.entered t a c :=
  State.changeSync_eq s t a c

/-- A target runs when it is a cylinder of the image's run list. -/
theorem Request.runs_iff (img : Image) (x : Option Cyl) :
    (∃ c ∈ allCyls, x = some c ∧ img.hasCyl c = true) ↔ x.any img.hasCyl = true := by
  cases x with
  | none => simp
  | some c =>
    have : c ∈ allCyls := by cases c <;> decide
    simp [this]

/-- The run-list rule (R173). -/
theorem State.capRunList_taken (s : State) (t : Stamp) : s.capRunList t = s.runListTaken t := by
  unfold State.capRunList State.runListTaken
  cases hr : s.cap.activeRequest with
  | none =>
    have : s.cap.fillingAs .knockRaw = none := by unfold Cap.fillingAs; rw [hr]; simp
    rw [this]
  | some r =>
    dsimp only
    by_cases hu : s.cap.unit = .filling
    · rw [Cap.fillingAs_eq hu hr]
      by_cases hk : r.kind = .knockRaw
      · rw [if_pos hk]
        dsimp only
        by_cases ht : r.target.any s.cfg.active.hasCyl = true
        · rw [if_pos ht, if_pos (.inr (.inr ((Request.runs_iff _ _).mpr ht)))]
        · rw [if_neg ht, if_neg (by rintro (h | h | h); exacts [h hu, h hk, ht ((Request.runs_iff _ _).mp h)])]
          split
          · next w hw =>
            rw [hw]
            exact State.endFilling_eq (s := s.modCap fun c => c.closeWindow w 0x0008) (by exact hr) t _
          · next hw =>
            rw [hw]
            exact State.endFilling_eq hr t _
      · rw [if_neg hk]; simp [hk]
    · rw [Cap.fillingAs_none hu]; simp [hu]

/-- Requests that start anew at a GEOMETRY apply, and the grant that follows (R173). -/
theorem State.capGeometry_restarted (s : State) (h : s.adec.sync ≠ .fullSync) (t : Stamp) :
    s.capGeometry t = State.grant { s with cap := { s.cap with requests := s.cap.requests.map Request.restarted } } t := by
  have : (fun r : Request => if r.state = .active then r else r.rearm (armConds s)) = Request.restarted := by
    funext r
    unfold Request.restarted
    rw [Request.rearm_eq, show armConds s = 1#8 from if_neg h, BitVec.and_comm 1#8 r.named]
  unfold State.capGeometry State.modCap
  rw [this]
  rfl

/-- The start anew of R173 keeps every handle. -/
theorem Request.restarted_handles (l : List Request) : (l.map Request.restarted).map (·.handle) = l.map (·.handle) := by
  rw [List.map_map]
  refine List.map_congr_left fun r _ => ?_
  simp only [Function.comp, Request.restarted]
  split <;> rfl

/-- An abandon notice depends on the capture unit, the ports, the active image and the cycle number alone, and changes the first two
(R164). -/
theorem State.noticeAbandon_on (s u : State) (hc : u.cfg.active = s.cfg.active) (hy : u.adec.cycle = s.adec.cycle) (hcap : u.cap = s.cap)
    (hp : u.ports = s.ports) (t : Stamp) (σ : Sensor) (b : Bool) :
    (u.noticeAbandon t σ b).cap = (s.noticeAbandon t σ b).cap ∧ (u.noticeAbandon t σ b).ports = (s.noticeAbandon t σ b).ports := by
  have held : ∀ (c : Cap) (r : Request),
      (State.captureHeld { u with cap := c } t r .ready).cap = (State.captureHeld { s with cap := c } t r .ready).cap ∧
      (State.captureHeld { u with cap := c } t r .ready).ports = (State.captureHeld { s with cap := c } t r .ready).ports := by
    intro c r
    unfold State.captureHeld
    dsimp only
    rw [hc, hy, hp]
    exact ⟨rfl, rfl⟩
  unfold State.noticeAbandon
  rw [hcap, hc]
  cases hr : s.cap.recordingOn σ with
  | none => exact ⟨hcap, hp⟩
  | some x =>
    obtain ⟨r, w⟩ := x
    dsimp only
    have e : ∀ v : State, v.cap = s.cap → (v.modCap fun c => c.closeWindow w 0x0008) = { v with cap := s.cap.closeWindow w 0x0008 } := by
      intro v h; unfold State.modCap; rw [h]; rfl
    rw [e u hcap, e s rfl]
    split
    · unfold State.readyAtCount
      dsimp only
      split
      · cases ha : (s.cap.closeWindow w 0x0008).activeRequest with
        | none =>
          unfold State.endFilling
          dsimp only
          rw [ha]
          exact ⟨rfl, hp⟩
        | some q =>
          rw [State.endFilling_eq (s := { u with cap := s.cap.closeWindow w 0x0008 }) ha,
            State.endFilling_eq (s := { s with cap := s.cap.closeWindow w 0x0008 }) ha]
          exact held _ q
      · exact ⟨rfl, hp⟩
    · exact ⟨rfl, hp⟩

end Sys2Proof.Machine
end

