-- ==== Sys2Proof/Laws/Apply.lean ====
section
/-! SUPPORT. An apply: what `State.applyCommit` does to every block, in the terms of claims (`Applied` of Sys2Proof/Safety.lean), and
the lemmas about its parts that this rests on. -/

namespace Sys2Proof.Machine

/-! ### The capture unit at a loss -/

/-- A halt event leaves the capture unit and the ports (R79). -/
theorem State.halt_cap (s u : State) :
    (if s.adec.sync = .halted then u.modMfa Mfa.halt else u).cap = u.cap ∧
      (if s.adec.sync = .halted then u.modMfa Mfa.halt else u).ports = u.ports := by
  split <;> exact ⟨rfl, rfl⟩

/-- What a loss event may do to the capture unit at stamp `t`: nothing while no capture fills, and a filling one at most ends,
held from `t` for `hold` ticks (R166). Requests and owner stay. -/
structure CapKeeps (t : Stamp) (hold : Nat) (c d : Cap) : Prop where
  requests : d.requests = c.requests
  active : d.active = c.active
  idle : c.unit ≠ .filling → d = c
  ends : c.unit = .filling → d.unit = .filling ∨ (d.unit = .held ∧ d.window = none ∧ d.holdStart = t ∧ d.holdTicks = hold)

theorem CapKeeps.refl (t h c) : CapKeeps t h c c := ⟨rfl, rfl, fun _ => rfl, fun h => .inl h⟩

theorem CapKeeps.trans {t h c d e} (x : CapKeeps t h c d) (y : CapKeeps t h d e) : CapKeeps t h c e where
  requests := y.requests.trans x.requests
  active := y.active.trans x.active
  idle := fun h => (y.idle (by rw [x.idle h]; exact h)).trans (x.idle h)
  ends := fun h => by
    rcases x.ends h with k | k
    · exact y.ends k
    · rw [y.idle (by rw [k.1]; simp)]; exact .inr k

/-- The end of a filling capture. -/
theorem State.endFilling_keeps (s : State) (hu : s.cap.unit = .filling) (t o) :
    CapKeeps t (s.cfg.active.holdMs * 2000) s.cap (s.endFilling t o).cap := by
  cases hr : s.cap.activeRequest with
  | none => unfold State.endFilling; rw [hr]; exact .refl ..
  | some r =>
    rw [State.endFilling_eq hr]
    exact ⟨rfl, rfl, fun h => absurd hu h, fun _ => .inr ⟨rfl, rfl, rfl, rfl⟩⟩

theorem Cap.closeWindow_keeps (t h) (c : Cap) (hu : c.unit = .filling) (w m) : CapKeeps t h c (c.closeWindow w m) :=
    ⟨rfl, rfl, fun k => absurd hu k, fun _ => .inl hu⟩

theorem State.closeEnd_keeps (s : State) (hu : s.cap.unit = .filling) (t o w m) :
    CapKeeps t (s.cfg.active.holdMs * 2000) s.cap ((s.modCap fun c => c.closeWindow w m).endFilling t o).cap :=
  (Cap.closeWindow_keeps _ _ _ hu w m).trans (State.endFilling_keeps (s.modCap fun c => c.closeWindow w m) hu t o)

theorem State.noticeAbandon_keeps (s : State) (t σ b) : CapKeeps t (s.cfg.active.holdMs * 2000) s.cap (s.noticeAbandon t σ b).cap
    := by
  unfold State.noticeAbandon
  split
  · exact .refl ..
  · next r w hw =>
    have hu : s.cap.unit = .filling := by
      unfold Cap.recordingOn at hw
      split at hw
      · next h1 _ => exact (Cap.fillingAs_some h1).1
      · cases hw
    dsimp only
    split
    · refine (Cap.closeWindow_keeps _ _ _ hu w 8#16).trans ?_
      unfold State.readyAtCount
      split
      · exact State.endFilling_keeps (s.modCap fun c => c.closeWindow w 8#16) hu t _
      · exact .refl ..
    · exact Cap.closeWindow_keeps _ _ _ hu w 8#16

theorem State.abandonSensor_keeps (s : State) (t σ b) : CapKeeps t (s.cfg.active.holdMs * 2000) s.cap (s.abandonSensor t σ b).cap
    := by
  unfold State.abandonSensor; dsimp only
  split
  · exact State.noticeAbandon_keeps (s.modChain σ _) t σ b
  · exact .refl ..

theorem State.abandonWindows_keeps (s : State) (t b) : CapKeeps t (s.cfg.active.holdMs * 2000) s.cap (s.abandonWindows t b).cap
    := by
  have h := State.abandonSensor_keeps (s.abandonSensor t .ks0 b) t .ks1 b
  rw [(s.abandonSensor_frame t .ks0 b).1.cfg] at h
  exact (State.abandonSensor_keeps s t .ks0 b).trans h

theorem State.capSyncLoss_keeps (s : State) (t) : CapKeeps t (s.cfg.active.holdMs * 2000) s.cap (s.capSyncLoss t).cap := by
  unfold State.capSyncLoss
  split
  · exact .refl ..
  · next r hr =>
    have hu := (Cap.fillingAs_some hr).1
    split
    · exact .refl ..
    · split
      · exact State.closeEnd_keeps s hu ..
      · exact State.endFilling_keeps s hu ..

theorem State.capCrankLoss_keeps (s : State) (t) : CapKeeps t (s.cfg.active.holdMs * 2000) s.cap (s.capCrankLoss t).cap := by
  unfold State.capCrankLoss
  split
  · exact .refl ..
  · next r hr =>
    have hu := (Cap.fillingAs_some hr).1
    split
    · exact State.endFilling_keeps s hu ..
    · exact .refl ..

theorem State.capRunList_keeps (s : State) (t) : CapKeeps t (s.cfg.active.holdMs * 2000) s.cap (s.capRunList t).cap := by
  unfold State.capRunList
  split
  · exact .refl ..
  · next r hr =>
    have hu := (Cap.fillingAs_some hr).1
    split
    · exact .refl ..
    · split
      · exact State.closeEnd_keeps s hu ..
      · exact State.endFilling_keeps s hu ..

theorem State.syncLoss_keeps (s : State) (t) : CapKeeps t (s.cfg.active.holdMs * 2000) s.cap (s.syncLoss t).cap := by
  unfold State.syncLoss
  generalize hX : (((s.setSmap { cursor := none, marks := .replicate 6 false }).setIgsu ⟨none, none, none, none, none,
      none⟩).modMfa Mfa.loseSync) = X
  have hc : X.cap = s.cap ∧ X.cfg = s.cfg := by rw [← hX]; exact ⟨rfl, rfl⟩
  have h1 := State.abandonWindows_keeps X t false
  have h2 := State.capSyncLoss_keeps ((X.abandonWindows t false).modCyt Cyt.discard) t
  have e : ((X.abandonWindows t false).modCyt Cyt.discard).cfg = s.cfg := (X.abandonWindows_frame t false).1.cfg.trans hc.2
  rw [e] at h2
  rw [hc.1, hc.2] at h1
  exact h1.trans h2

/-- A change of the sync state. -/
theorem State.changeSync_keeps (s : State) (t A c) : CapKeeps t (s.cfg.active.holdMs * 2000) s.cap (s.changeSync t A c).cap := by
  rw [State.changeSync_eq]
  generalize hB : ({ s with adec := A, ports := syncPorts s.ports (syncRecord t A.cycle A.sync c A.polarity) } : State) = B
  have hc : B.cap = s.cap ∧ B.cfg = s.cfg := by rw [← hB]; exact ⟨rfl, rfl⟩
  unfold State.lossEvents; dsimp only
  rw [(State.halt_cap _ _).1]
  rw [← hc.1, ← hc.2]
  have h1 : ∀ P [Decidable P], CapKeeps t (B.cfg.active.holdMs * 2000) B.cap (if P then B.syncLoss t else B).cap := by
    intro P _; split
    · exact State.syncLoss_keeps ..
    · exact .refl ..
  split
  · refine (h1 (s.adec.sync = .fullSync ∧ B.adec.sync ≠ .fullSync)).trans ?_
    have := State.capCrankLoss_keeps (if s.adec.sync = .fullSync ∧ B.adec.sync ≠ .fullSync then B.syncLoss t else B) t
    have e : (if s.adec.sync = .fullSync ∧ B.adec.sync ≠ .fullSync then B.syncLoss t else B).cfg = B.cfg := by
      split
      · exact (B.syncLoss_frame t).1.cfg
      · rfl
    rw [e] at this; exact this
  · exact h1 (s.adec.sync = .fullSync ∧ B.adec.sync ≠ .fullSync)

/-- ports unchanged apart from SYNC while no capture fills -/
theorem State.abandonSensor_idle (s : State) (h : ∀ σ, s.cap.recordingOn σ = none) (t σ b) : (s.abandonSensor t σ b).cap =
    s.cap ∧ (s.abandonSensor t σ b).ports = s.ports := by
  unfold State.abandonSensor; dsimp only
  split
  · unfold State.noticeAbandon; rw [show (State.modChain s σ _).cap = s.cap from rfl, h]; exact ⟨rfl, rfl⟩
  · exact ⟨rfl, rfl⟩

theorem State.abandonWindows_idle (s : State) (h : ∀ σ, s.cap.recordingOn σ = none) (t b) : (s.abandonWindows t b).cap = s.cap ∧
    (s.abandonWindows t b).ports = s.ports := by
  have a := State.abandonSensor_idle s h t .ks0 b
  have c := State.abandonSensor_idle (s.abandonSensor t .ks0 b) (by rw [a.1]; exact h) t .ks1 b
  exact ⟨c.1.trans a.1, c.2.trans a.2⟩

theorem State.syncLoss_idle (s : State) (h : s.cap.unit ≠ .filling) (t) : (s.syncLoss t).ports = s.ports := by
  unfold State.syncLoss
  generalize hX : (((s.setSmap { cursor := none, marks := .replicate 6 false }).setIgsu ⟨none, none, none, none, none,
      none⟩).modMfa Mfa.loseSync) = X
  have hc : X.cap = s.cap ∧ X.ports = s.ports := by rw [← hX]; exact ⟨rfl, rfl⟩
  have a := State.abandonWindows_idle X (fun σ => Cap.recordingOn_none (by rw [hc.1]; exact Cap.fillingAs_none h _) σ) t false
  unfold State.capSyncLoss
  rw [Cap.fillingAs_none (by show (X.abandonWindows t false).cap.unit ≠ _; rw [a.1, hc.1]; exact h)]
  exact a.2.trans hc.2

/-- While no capture fills, a change of the sync state puts its SYNC record alone on the ports. -/
theorem State.changeSync_idle (s : State) (h : s.cap.unit ≠ .filling) (t A c) : (s.changeSync t A c).ports =
    syncPorts s.ports (syncRecord t A.cycle A.sync c A.polarity) := by
  rw [State.changeSync_eq]
  generalize hB : ({ s with adec := A, ports := syncPorts s.ports (syncRecord t A.cycle A.sync c A.polarity) } : State) = B
  have hc : B.cap = s.cap ∧ B.ports = syncPorts s.ports (syncRecord t A.cycle A.sync c A.polarity) :=
      by rw [← hB]; exact ⟨rfl, rfl⟩
  unfold State.lossEvents; dsimp only
  rw [(State.halt_cap _ _).2]
  have hb : B.cap.unit ≠ .filling := by rw [hc.1]; exact h
  have h1 : ∀ P [Decidable P], (if P then B.syncLoss t else B).ports = B.ports ∧
      (if P then B.syncLoss t else B).cap.unit ≠ .filling := by
    intro P _; split
    · exact ⟨State.syncLoss_idle _ hb _, by rw [(State.syncLoss_keeps B t).idle hb]; exact hb⟩
    · exact ⟨rfl, hb⟩
  split
  · have := h1 (s.adec.sync = .fullSync ∧ B.adec.sync ≠ .fullSync)
    unfold State.capCrankLoss
    rw [Cap.fillingAs_none this.2]; exact this.1.trans hc.2
  · exact (h1 (s.adec.sync = .fullSync ∧ B.adec.sync ≠ .fullSync)).1.trans hc.2

/-! ### The other blocks at a change of the sync state -/

/-- What a sync change keeps of KFE and CYT: gains, stage gains, filters and entries; an empty list stays empty. -/
structure BlocksKept (s u : State) : Prop where
  rows : u.kfe.rows = s.kfe.rows
  chain : ∀ σ, (u.kfe.chain.get σ).stage = (s.kfe.chain.get σ).stage ∧ (u.kfe.chain.get σ).filter = (s.kfe.chain.get σ).filter
  entry : u.cyt.entry = s.cyt.entry
  mono : s.cyt.pendingList = [] → u.cyt.pendingList = []

theorem BlocksKept.refl (s) : BlocksKept s s := ⟨rfl, fun _ => ⟨rfl, rfl⟩, rfl, id⟩

theorem BlocksKept.trans {s u w} (a : BlocksKept s u) (b : BlocksKept u w) : BlocksKept s w :=
    ⟨b.1.trans a.1, fun σ => ⟨(b.2 σ).1.trans (a.2 σ).1, (b.2 σ).2.trans (a.2 σ).2⟩, b.3.trans a.3, fun h => b.4 (a.4 h)⟩

theorem State.syncLoss_kept (s : State) (t) : BlocksKept s (s.syncLoss t) := by
  have L := (State.syncLoss_lost s t).1
  refine ⟨by rw [L.kfe], fun σ => ?_, by rw [L.cyt], fun _ => by rw [L.cyt]⟩
  rw [L.kfe]; cases σ <;> exact ⟨rfl, rfl⟩

/-- A change of the sync state keeps gains, filters and entries, and MFA outside a sync loss and a halt. -/
theorem State.changeSync_kept (s : State) (t A c) : BlocksKept s (s.changeSync t A c) ∧
    ((s.changeSync t A c).mfa = s.mfa ∨ (s.adec.sync = .fullSync ∧ A.sync ≠ .fullSync) ∨ A.sync = .halted) ∧
    (A.sync ≠ .halted → (s.changeSync t A c).mfa.blockCycles = s.mfa.blockCycles ∧ (s.changeSync t A c).mfa.counts =
        s.mfa.counts) := by
  rw [State.changeSync_eq]
  generalize hB : ({ s with adec := A, ports := syncPorts s.ports (syncRecord t A.cycle A.sync c A.polarity) } : State) = B
  have w0 : BlocksKept s B := by rw [← hB]; exact ⟨rfl, fun _ => ⟨rfl, rfl⟩, rfl, id⟩
  have hm : B.mfa = s.mfa := by rw [← hB]
  have hA : B.adec = A := by rw [← hB]
  unfold State.lossEvents; dsimp only; rw [hA]
  let X := (if s.adec.sync = .fullSync ∧ A.sync ≠ .fullSync then B.syncLoss t else B)
  have hX : BlocksKept B X ∧ (X.mfa = s.mfa ∨ (s.adec.sync = .fullSync ∧ A.sync ≠ .fullSync)) ∧ X.mfa.blockCycles =
      s.mfa.blockCycles ∧ X.mfa.counts = s.mfa.counts := by
    show BlocksKept B (if _ then _ else _) ∧ ((if _ then _ else _ : State).mfa = _ ∨ _) ∧
        (if _ then _ else _ : State).mfa.blockCycles = _ ∧ (if _ then _ else _ : State).mfa.counts = _
    have L := State.syncLoss_lost B t
    split
    · next h => exact ⟨State.syncLoss_kept B t, .inr h, by rw [L.2.2, hm], by rw [L.2.1, hm]⟩
    · exact ⟨.refl _, .inl hm, by rw [hm], by rw [hm]⟩
  let Y := (if (s.adec.sync = .fullSync ∨ s.adec.sync = .crankSync) ∧
      (A.sync = .seek ∨ A.sync = .halted) then X.capCrankLoss t else X)
  have hY : BlocksKept X Y ∧ Y.mfa = X.mfa := by
    show BlocksKept X (if _ then _ else _) ∧ (if _ then _ else _ : State).mfa = _
    split
    · have f := X.capCrankLoss_frame t
      exact ⟨⟨by rw [f.kfe], by rw [f.kfe]; exact fun _ => ⟨rfl, rfl⟩, by rw [f.cyt], by rw [f.cyt]; exact id⟩, f.mfa⟩
    · exact ⟨.refl _, rfl⟩
  show BlocksKept s (if A.sync = .halted then Y.modMfa Mfa.halt else Y) ∧
      ((if A.sync = .halted then Y.modMfa Mfa.halt else Y).mfa = _ ∨ _) ∧
      (_ → (if A.sync = .halted then Y.modMfa Mfa.halt else Y).mfa.blockCycles = _ ∧
      (if A.sync = .halted then Y.modMfa Mfa.halt else Y).mfa.counts = _)
  have hw := (w0.trans hX.1).trans hY.1
  split
  · next h =>
    refine ⟨hw.trans ⟨rfl, fun _ => ⟨rfl, rfl⟩, rfl, id⟩, .inr (.inr h), fun k => absurd h k⟩
  · next h =>
    refine ⟨hw, ?_, fun _ => ?_⟩
    · rw [hY.2]; rcases hX.2.1 with k | k
      · exact .inl k
      · exact .inr (.inl k)
    · rw [hY.2]; exact hX.2.2

/-- A change that leaves FULL_SYNC takes the sync loss (R21). -/
theorem State.changeSync_lost (s : State) (t A c) (hb : s.adec.sync = .fullSync) (ha : A.sync ≠ .fullSync) :
    let u := s.changeSync t A c
    u.smap = ⟨none, .replicate 6 false⟩ ∧ u.igsu = ⟨none, none, none, none, none, none⟩ ∧
      u.mfa.segments = [] ∧ u.mfa.history = [] ∧ u.mfa.last = none ∧ u.cyt.pendingList = [] ∧
      ∀ σ : Sensor, (u.kfe.chain.get σ).knock = none ∧ (u.kfe.chain.get σ).guard = none := by
  intro u
  have hu : u = s.changeSync t A c := rfl
  rw [State.changeSync_eq] at hu
  generalize hB : ({ s with adec := A, ports := syncPorts s.ports (syncRecord t A.cycle A.sync c A.polarity) } : State) = B at hu
  have hA : B.adec = A := by rw [← hB]
  unfold State.lossEvents at hu; dsimp only at hu; rw [hA, if_pos (show s.adec.sync = .fullSync ∧
      A.sync ≠ .fullSync from ⟨hb, ha⟩)] at hu
  have L := (State.syncLoss_lost B t).1
  have LL : ∀ Y : State, Y.smap = (B.syncLoss t).smap → Y.igsu = (B.syncLoss t).igsu → Y.mfa = (B.syncLoss t).mfa → Y.cyt =
      (B.syncLoss t).cyt → Y.kfe = (B.syncLoss t).kfe →
     ∀ b : Bool, let u := (if b then Y.modMfa Mfa.halt else Y); u.smap = ⟨none, .replicate 6 false⟩ ∧ u.igsu =
         ⟨none, none, none, none, none, none⟩ ∧
      u.mfa.segments = [] ∧ u.mfa.history = [] ∧ u.mfa.last = none ∧ u.cyt.pendingList = [] ∧
      ∀ σ : Sensor, (u.kfe.chain.get σ).knock = none ∧ (u.kfe.chain.get σ).guard = none := by
    intro Y h1 h2 h3 h4 h5 b
    have e3 : Y.mfa.segments = [] ∧ Y.mfa.history = [] ∧ Y.mfa.last = none := by rw [h3, L.mfa]; exact ⟨rfl, rfl, rfl⟩
    have e4 : Y.cyt.pendingList = [] := by rw [h4, L.cyt]
    have e5 : ∀ σ : Sensor, (Y.kfe.chain.get σ).knock = none ∧ (Y.kfe.chain.get σ).guard = none := by
      rw [h5, L.kfe]; intro σ; constructor <;> cases σ <;> rfl
    cases b
    · exact ⟨h1.trans L.smap, h2.trans L.igsu, e3.1, e3.2.1, e3.2.2, e4, e5⟩
    · exact ⟨h1.trans L.smap, h2.trans L.igsu, e3.1, rfl, e3.2.2, e4, e5⟩
  rw [hu]
  have f := (B.syncLoss t).capCrankLoss_frame t
  have g := LL (if (s.adec.sync = .fullSync ∨ s.adec.sync = .crankSync) ∧
      (A.sync = .seek ∨ A.sync = .halted) then (B.syncLoss t).capCrankLoss t else B.syncLoss t)
    (by split; exact f.smap; rfl) (by split; exact f.igsu; rfl) (by split; exact f.mfa; rfl) (by split; exact f.cyt; rfl)
    (by split; exact f.kfe; rfl) (decide (A.sync = .halted))
  simp only [decide_eq_true_eq] at g
  exact g

/-! ### The forced WARMUP decisions (R81) -/

theorem SlotInst.named_eq (i j : SlotInst) : i.named j.slot j.cycle = decide ((i.slot, i.cycle) = (j.slot, j.cycle)) := by
  unfold SlotInst.named
  by_cases h1 : i.slot = j.slot <;> by_cases h2 : i.cycle = j.cycle <;> simp [h1, h2]

theorem find_named {pre L : List SlotInst} {i : SlotInst} (hn : ((pre ++ i :: L).map fun i => (i.slot, i.cycle)).Nodup) :
    (pre ++ i :: L).find? (fun y => y.named i.slot i.cycle) = some i := by
  rw [List.find?_append]
  have : pre.find? (fun y => y.named i.slot i.cycle) = none := by
    rw [List.find?_eq_none]
    intro y hy
    rw [SlotInst.named_eq]
    rw [List.map_append, List.nodup_append] at hn
    have := hn.2.2 (y.slot, y.cycle) (List.mem_map.mpr ⟨y, hy, rfl⟩) (i.slot, i.cycle) (by simp)
    simpa using this
  rw [this]
  simp [SlotInst.named]

theorem others_not_named {pre L : List SlotInst} {i : SlotInst} (hn : ((pre ++ i :: L).map fun i => (i.slot, i.cycle)).Nodup) :
    (∀ y ∈ pre, y.named i.slot i.cycle = false) ∧ ∀ y ∈ L, y.named i.slot i.cycle = false := by
  rw [List.map_append, List.nodup_append] at hn
  constructor
  · intro y hy
    have := hn.2.2 (y.slot, y.cycle) (List.mem_map.mpr ⟨y, hy, rfl⟩) (i.slot, i.cycle) (by simp)
    rw [SlotInst.named_eq]; simpa using this
  · intro y hy
    rw [SlotInst.named_eq]
    have h := hn.2.1
    rw [List.map_cons, List.nodup_cons] at h
    have : (y.slot, y.cycle) ≠ (i.slot, i.cycle) := fun e => h.1 (by rw [← e]; exact List.mem_map.mpr ⟨y, hy, rfl⟩)
    simpa using this

theorem map_unnamed (l : List SlotInst) (p : SlotInst → Bool) (f : SlotInst → SlotInst) (h : ∀ y ∈ l, p y = false) :
    (l.map fun y => if p y then f y else y) = l := by
  conv_rhs => rw [← List.map_id l]
  apply List.map_congr_left
  intro y hy; simp [h y hy]

theorem filter_unnamed (l : List SlotInst) (p : SlotInst → Bool) (h : ∀ y ∈ l, p y = false) : (l.filter fun y => !p y) = l := by
  rw [List.filter_eq_self]; intro y hy; simp [h y hy]

/-- An instance decided NOT_ASSESSED WARMUP, with its cylinder's counts as they stand (R72, R81). -/
def SlotInst.warmup (c : PerCyl MisfireCounts) (i : SlotInst) : SlotInst :=
    { i with misfire := some ⟨⟨.notAssessed, some .warmup, none⟩, (c.get i.cyl).cons, (c.get i.cyl).block⟩ }

/-- One forced WARMUP decision: the last decided record, and the instance written, or gone when it completes (R81, R133). -/
theorem State.applyMisfire_warmup (t) (x : State) (pre L : List SlotInst) (i : SlotInst) (hp : x.cyt.pendingList =
    pre ++ i :: L) (hn : ((pre ++ i :: L).map fun i => (i.slot, i.cycle)).Nodup) :
    let u := x.applyMisfire t i (plainMisfire .notAssessed (some .warmup))
    u.mfa = { x.mfa with last := some ⟨i.slot, i.cycle, (i.spark.bind (·.cut)).isSome⟩ } ∧
    u.cyt.pendingList = pre ++ ((if i.knock.isNone then [SlotInst.warmup x.mfa.counts i] else []) ++ L) := by
  intro u
  have o := others_not_named hn
  have hc : ∀ img, (x.mfa.counts.get i.cyl).after img .notAssessed = x.mfa.counts.get i.cyl := fun _ => rfl
  let y : State :=
    { x with
      mfa := { x.mfa with last := some ⟨i.slot, i.cycle, (i.spark.bind (·.cut)).isSome⟩ }
      cyt := { x.cyt with pendingList := pre ++ (SlotInst.warmup x.mfa.counts i :: L) } }
  have hu : u = y.tryComplete t i.slot i.cycle := by
    show State.applyMisfire _ _ _ _ = _
    unfold State.applyMisfire
    simp only [plainMisfire, hc, historyAfter]
    have : (x.mfa.counts.get i.cyl).persists x.cfg.active .notAssessed = false := by simp [MisfireCounts.persists]
    rw [this]
    simp only [Bool.false_eq_true, ↓reduceIte]
    congr 1
    unfold State.modCyt State.modMfa Cyt.write
    simp only [State.setMfa, State.setCyt, hp, List.map_append, List.map_cons]
    rw [map_unnamed pre _ _ o.1, map_unnamed L _ _ o.2]
    have : i.named i.slot i.cycle = true := by simp [SlotInst.named]
    rw [if_pos this, PerCyl.set_get]; rfl
  have hnn : ((pre ++ SlotInst.warmup x.mfa.counts i :: L).map fun i => (i.slot, i.cycle)).Nodup := by
    have : ((pre ++ SlotInst.warmup x.mfa.counts i :: L).map fun i => (i.slot, i.cycle)) =
        ((pre ++ i :: L).map fun i => (i.slot, i.cycle)) := by simp [SlotInst.warmup]
    rw [this]; exact hn
  have hf : y.cyt.find i.slot i.cycle = some (SlotInst.warmup x.mfa.counts i) := find_named hnn
  rw [hu]
  unfold State.tryComplete
  rw [hf]
  cases hk : i.knock with
  | none => 
    have : (SlotInst.warmup x.mfa.counts i).knock = none := hk
    simp only [this]
    refine ⟨rfl, rfl⟩
  | some k =>
    have e1 : (SlotInst.warmup x.mfa.counts i).knock = some k := hk
    simp only [e1]
    have : (SlotInst.warmup x.mfa.counts i).misfire = some ⟨⟨.notAssessed, some .warmup, none⟩, (x.mfa.counts.get i.cyl).cons,
        (x.mfa.counts.get i.cyl).block⟩ := rfl
    rw [this]; dsimp only
    have F := y.complete_frame t (SlotInst.warmup x.mfa.counts i) ⟨⟨.notAssessed, some .warmup, none⟩,
        (x.mfa.counts.get i.cyl).cons, (x.mfa.counts.get i.cyl).block⟩ k
    refine ⟨F.mfa, ?_⟩
    unfold State.complete
    dsimp only
    generalize hz : State.emit _ _ = z
    have hzl : z.cyt.pendingList = pre ++ (SlotInst.warmup x.mfa.counts i :: L) := by rw [← hz]; rfl
    have G := z.noticeCompletion_frame t (SlotInst.warmup x.mfa.counts i).cyl .notAssessed k.judged.verdict
    show (Cyt.remove (State.noticeCompletion z t _ _ _).cyt i.slot i.cycle).pendingList = _
    rw [G.cyt]
    unfold Cyt.remove
    dsimp only
    rw [hzl, List.filter_append, List.filter_cons, filter_unnamed pre _ o.1, filter_unnamed L _ o.2]
    have : (SlotInst.warmup x.mfa.counts i).named i.slot i.cycle = true := by simp [SlotInst.named, SlotInst.warmup]
    simp [this]

/-- The forced WARMUP decisions of a list, in its order (R81). -/
theorem State.forceWarmup_fold (t) : ∀ (L pre : List SlotInst) (x : State), x.cyt.pendingList = pre ++ L →
    ((pre ++ L).map fun i => (i.slot, i.cycle)).Nodup →
    let u := (L.map fun i => (i.slot, i.cycle)).foldl (State.forceWarmup t) x
    u.mfa =
      { x.mfa with
        last := ((L.filter fun i => i.misfire.isNone).getLast?.map fun i =>
          ⟨i.slot, i.cycle, (i.spark.bind (·.cut)).isSome⟩).or x.mfa.last } ∧
    u.cyt.pendingList = (pre ++ (L.filter fun i => i.misfire.isSome || i.knock.isNone).map fun i =>
        if i.misfire.isSome then i else SlotInst.warmup x.mfa.counts i) ∧
    u = (L.filter fun i => i.misfire.isNone).foldl (fun v i => v.applyMisfire t i (plainMisfire .notAssessed (some .warmup))) x := by
  intro L
  induction L with
  | nil => intro pre x hp hn; simp [hp]
  | cons i L ih =>
    intro pre x hp hn u
    have hf : x.cyt.find i.slot i.cycle = some i := by unfold Cyt.find; rw [hp]; exact find_named hn
    have hu : u = (L.map fun i => (i.slot, i.cycle)).foldl (State.forceWarmup t) (State.forceWarmup t x (i.slot, i.cycle)) := rfl
    cases hm : i.misfire with
    | some m =>
      have : State.forceWarmup t x (i.slot, i.cycle) = x := by unfold State.forceWarmup; rw [hf]; simp [hm]
      rw [this] at hu
      have := ih (pre ++ [i]) x (by simpa using hp) (by simpa using hn)
      rw [hu]
      refine ⟨?_, ?_, ?_⟩
      · rw [this.1]; simp [hm]
      · rw [this.2.1]; simp [hm]
      · rw [this.2.2]; simp [hm]
    | none =>
      have : State.forceWarmup t x (i.slot, i.cycle) = x.applyMisfire t i (plainMisfire .notAssessed (some .warmup)) :=
          by unfold State.forceWarmup; rw [hf]; simp [hm]
      rw [this] at hu
      have W := State.applyMisfire_warmup t x pre L i hp hn
      generalize hy : x.applyMisfire t i (plainMisfire .notAssessed (some .warmup)) = y at hu W
      dsimp only at W
      have hsub : ((pre ++ ((if i.knock.isNone then [SlotInst.warmup x.mfa.counts i] else []) ++ L)).map fun i =>
          (i.slot, i.cycle)).Nodup := by
        split
        · have : ((pre ++ ([SlotInst.warmup x.mfa.counts i] ++ L)).map fun i => (i.slot, i.cycle)) =
              ((pre ++ i :: L).map fun i => (i.slot, i.cycle)) := by simp [SlotInst.warmup]
          rw [this]; exact hn
        · refine List.Nodup.sublist (List.Sublist.map _ ?_) hn
          simp
      have := ih (pre ++ (if i.knock.isNone then [SlotInst.warmup x.mfa.counts i] else [])) y (by rw [W.2, List.append_assoc])
          (by rw [List.append_assoc]; exact hsub)
      rw [hu]
      have hc : y.mfa.counts = x.mfa.counts := by rw [W.1]
      refine ⟨?_, ?_, ?_⟩
      · rw [this.1, W.1]
        simp only [List.filter_cons, hm, Option.isNone_none, ↓reduceIte]
        congr 1
        cases hl : (L.filter fun i => i.misfire.isNone) with
        | nil => simp
        | cons a b =>
          have : (a :: b).getLast? = some ((a :: b).getLast (by simp)) := List.getLast?_eq_some_getLast (by simp)
          rw [List.getLast?_cons_cons, this]; rfl
      · rw [this.2.1, hc]
        cases hk : i.knock <;> simp [hm, hk]
      · rw [this.2.2, List.filter_cons, hm, Option.isNone_none, if_pos rfl, List.foldl_cons, hy]

/-- MFA and the list after a commit that changes the segment offset (R81). -/
theorem State.segOffsetApply_moved (s : State) (t) (hn : (s.cyt.pendingList.map fun i => (i.slot, i.cycle)).Nodup) :
    (s.segOffsetApply t).mfa =
      { s.mfa with
        segments := []
        last := (s.cyt.pendingList.filter fun i => i.misfire.isNone).getLast?.map fun i =>
          ⟨i.slot, i.cycle, (i.spark.bind (·.cut)).isSome⟩ } ∧
    (s.segOffsetApply t).cyt.pendingList = ((s.cyt.pendingList.filter fun i => i.misfire.isSome || i.knock.isNone).map fun i =>
        if i.misfire.isSome then i else SlotInst.warmup s.mfa.counts i) ∧
    s.segOffsetApply t =
      ((s.cyt.pendingList.filter fun i => i.misfire.isNone).foldl
        (fun v i => v.applyMisfire t i (plainMisfire .notAssessed (some .warmup))) (s.modMfa fun m => { m with last := none })).modMfa
        fun m => { m with segments := [] } := by
  have := State.forceWarmup_fold t s.cyt.pendingList [] (s.modMfa fun m => { m with last := none }) rfl (by simpa using hn)
  unfold State.segOffsetApply
  refine ⟨?_, ?_, by rw [this.2.2]⟩
  · show ({ (List.foldl _ _ _ : State).mfa with segments := [] } : Mfa) = _
    rw [this.1]; simp [State.modMfa, State.setMfa]
  · show ((List.foldl _ _ _ : State).cyt.pendingList) = _
    rw [this.2.1]; simp [State.modMfa, State.setMfa]

theorem State.segOffsetApply_empty (s : State) (t) (hn : s.cyt.pendingList = []) : s.segOffsetApply t =
    { s with mfa := { s.mfa with last := none, segments := [] } } := by
  unfold State.segOffsetApply; rw [hn]; rfl

/-! ### The blocks after ADEC -/

/-- What an apply makes of each block after ADEC. `x` is the state after ADEC, `O` the old image. -/
structure AfterAdec (t : Stamp) (cls : CommitClass) (O : Image) (x u : State) : Prop where
  frame : ApplyFrame x u
  cfg : u.cfg = x.cfg
  adec : u.adec =
    if cls = .layout ∧ x.adec.sync = .fullSync then { x.adec with nextAngle := x.adec.cycleAngle x.cfg.active t + 1 } else x.adec
  smap : u.smap =
    if cls = .calibration then x.smap
    else if cls = .geometry then { x.smap with marks := .replicate 6 false }
    else if x.adec.sync = .fullSync then
      ⟨some (x.cfg.active.runStart + x.adec.cycleAngle x.cfg.active t / x.cfg.active.slotLen), .replicate 6 false⟩
    else { x.smap with marks := .replicate 6 false }
  igsu : u.igsu = if cls = .layout then ⟨none, none, none, none, none, none⟩ else x.igsu
  ops : u.ops =
    if O.alsinEnable ≠ x.cfg.active.alsinEnable ∨ O.alsinActive ≠ x.cfg.active.alsinActive then x.ops.merge x.cfg.active
    else x.ops
  kna : u.kna = (x.applyKna cls O).kna
  rows : u.kfe.rows = vmapIdx (fun r y => if resetsGain cls O x.cfg.active r then ⟨(x.cfg.active.row r).initGain, 0⟩ else y)
      x.kfe.rows
  chain : u.kfe.chain = if cls = .layout then x.kfe.chain.map fun c => { c with knock := none, guard := none } else x.kfe.chain
  mfaSame : cls = .calibration → O.segOffset = x.cfg.active.segOffset →
    u.mfa = x.mfa ∧ u.cyt = (x.applyKna cls O).cyt ∧ u.cap = x.cap ∧ u.ports = x.ports
  mfaMoved : cls = .calibration → O.segOffset ≠ x.cfg.active.segOffset →
    (x.cyt.pendingList.map fun i => (i.slot, i.cycle)).Nodup →
    u.mfa =
      { x.mfa with
        segments := []
        last := (x.cyt.pendingList.filter fun i => i.misfire.isNone).getLast?.map fun i =>
          ⟨i.slot, i.cycle, (i.spark.bind (·.cut)).isSome⟩ } ∧
    u.cyt.pendingList = (x.cyt.pendingList.filter fun i => i.misfire.isSome || i.knock.isNone).map fun i =>
        if i.misfire.isSome then i else SlotInst.warmup x.mfa.counts i
  mfaNew : cls ≠ .calibration → u.mfa = x.mfa.newRunList x.cfg.active ∧ u.cyt = (x.applyKna cls O).cyt.newRunList O x.cfg.active
  capNew : cls ≠ .calibration → ∃ y : State,
    CapKeeps t (x.cfg.active.holdMs * 2000) x.cap y.cap ∧ y.cfg = x.cfg ∧ y.adec.sync = x.adec.sync ∧
      y.adec.cycle = x.adec.cycle ∧
      ((cls = .geometry ∨ ∀ σ, x.cap.recordingOn σ = none) → y.cap = x.cap ∧ y.ports = x.ports) ∧
      u.cap = (if cls = .layout then y.capRunList t else (y.capRunList t).capGeometry t).cap ∧
      u.ports = (if cls = .layout then y.capRunList t else (y.capRunList t).capGeometry t).ports ∧
      y = { u with cap := y.cap, ports := y.ports } ∧
      (cls = .layout → y.cap = (x.abandonWindows t true).cap ∧ y.ports = (x.abandonWindows t true).ports)
  calSame : cls = .calibration → O.segOffset = x.cfg.active.segOffset ∨ x.cyt.pendingList = [] →
    u.cap = x.cap ∧ u.ports = x.ports
  calMoved : cls = .calibration → O.segOffset ≠ x.cfg.active.segOffset →
    u = State.applyKfe (State.segOffsetApply ((x.applyKna cls O).applyOps O) t) cls O

/-- KNA's part of an apply changes KNA and the published entries alone (R123 to R126, R139). -/
theorem State.applyKna_fields (x : State) (cls O) : ∃ k c, x.applyKna cls O =
    { x with kna := k, cyt := { x.cyt with entry := c } } := by
  let KC : State → Prop := fun u => ∃ k c, u = { x with kna := k, cyt := { x.cyt with entry := c } }
  have set : ∀ (u : State) (f : State → Kna), KC u → KC (u.setKna (f u)) := by
    rintro u f ⟨k, c, h⟩; exact ⟨f u, c, by rw [h]; rfl⟩
  have e0 : KC x := ⟨x.kna, x.cyt.entry, rfl⟩
  show KC (State.applyKna x cls O)
  unfold State.applyKna; dsimp only
  have e1 : KC (if x.cfg.active.retardMax < O.retardMax then (x.modCyt fun y =>
      y.clampRetard x.kna x.cfg.active.retardMax).setKna (x.kna.clampRetard x.cfg.active.retardMax) else x) := by
    split
    · exact ⟨_, _, rfl⟩
    · exact e0
  revert e1
  generalize (if x.cfg.active.retardMax < O.retardMax then (x.modCyt fun y => y.clampRetard x.kna x.cfg.active.retardMax).setKna
      (x.kna.clampRetard x.cfg.active.retardMax) else x) = y1
  intro e1
  have e2 : KC (if O.refFloor < x.cfg.active.refFloor then y1.setKna (y1.kna.raiseFloor x.cfg.active.refFloor) else y1) := by
    split
    · exact set y1 (fun u => u.kna.raiseFloor x.cfg.active.refFloor) e1
    · exact e1
  revert e2
  generalize (if O.refFloor < x.cfg.active.refFloor then y1.setKna (y1.kna.raiseFloor x.cfg.active.refFloor) else y1) = y2
  intro e2
  have e3 : KC (if cls = .geometry then y2.setKna (y2.kna.restart x.cfg.active.refStart) else y2) := by
    split
    · exact set y2 (fun u => u.kna.restart x.cfg.active.refStart) e2
    · exact e2
  revert e3
  generalize (if cls = .geometry then y2.setKna (y2.kna.restart x.cfg.active.refStart) else y2) = y3
  intro e3
  split
  · exact e3
  · exact set y3 (fun u => u.kna.newRunList x.cfg.active) e3

theorem State.applyKna_frame (x : State) (cls O) : (x.applyKna cls O).adec = x.adec ∧ (x.applyKna cls O).smap = x.smap ∧
    (x.applyKna cls O).igsu = x.igsu ∧ (x.applyKna cls O).ops = x.ops ∧
   (x.applyKna cls O).mfa = x.mfa ∧ (x.applyKna cls O).kfe = x.kfe ∧ (x.applyKna cls O).cap = x.cap ∧ (x.applyKna cls O).ports =
       x.ports ∧ (x.applyKna cls O).cfg = x.cfg ∧ ApplyFrame x (x.applyKna cls O) ∧ (x.applyKna cls O).cyt.pendingList =
       x.cyt.pendingList := by
  obtain ⟨k, c, h⟩ := State.applyKna_fields x cls O
  rw [h]; exact ⟨rfl, rfl, rfl, rfl, rfl, rfl, rfl, rfl, rfl, ⟨rfl, rfl, rfl, rfl⟩, rfl⟩

theorem State.applyKna_congr (x y : State) (cls O) (h1 : y.kna = x.kna) (h2 : y.cyt = x.cyt) (h3 : y.cfg = x.cfg) :
    (y.applyKna cls O).kna = (x.applyKna cls O).kna ∧ (y.applyKna cls O).cyt = (x.applyKna cls O).cyt := by
  unfold State.applyKna State.modCyt; dsimp only
  rw [h1, h2, h3]
  cases cls <;> by_cases a : x.cfg.active.retardMax < O.retardMax <;> by_cases b : O.refFloor < x.cfg.active.refFloor <;>
    simp only [a, b, ↓reduceIte, reduceCtorEq, State.setKna_kna, State.setKna_cyt, State.setCyt_cyt, h1, h2,
        and_self]

/-- What OPS, MFA and KFE make of the state `y` at an apply (R49, R80, R81, R97). -/
structure Assessors (t : Stamp) (cls : CommitClass) (O : Image) (y z : State) : Prop where
  frame : ApplyFrame y z
  cfg : z.cfg = y.cfg
  adec : z.adec = y.adec
  smap : z.smap = y.smap
  igsu : z.igsu = y.igsu
  ops : z.ops =
    if O.alsinEnable ≠ y.cfg.active.alsinEnable ∨ O.alsinActive ≠ y.cfg.active.alsinActive then y.ops.merge y.cfg.active
    else y.ops
  kna : z.kna = y.kna
  rows : z.kfe.rows = vmapIdx (fun r v => if resetsGain cls O y.cfg.active r then ⟨(y.cfg.active.row r).initGain, 0⟩ else v)
      y.kfe.rows
  chain : z.kfe.chain = y.kfe.chain
  same : cls = .calibration → O.segOffset = y.cfg.active.segOffset →
    z.mfa = y.mfa ∧ z.cyt = y.cyt ∧ z.cap = y.cap ∧ z.ports = y.ports
  moved : cls = .calibration → O.segOffset ≠ y.cfg.active.segOffset →
    (y.cyt.pendingList.map fun i => (i.slot, i.cycle)).Nodup →
    z.mfa =
      { y.mfa with
        segments := []
        last := (y.cyt.pendingList.filter fun i => i.misfire.isNone).getLast?.map fun i =>
          ⟨i.slot, i.cycle, (i.spark.bind (·.cut)).isSome⟩ } ∧
    z.cyt.pendingList = (y.cyt.pendingList.filter fun i => i.misfire.isSome || i.knock.isNone).map fun i =>
        if i.misfire.isSome then i else SlotInst.warmup y.mfa.counts i
  new : cls ≠ .calibration → y.cyt.pendingList = [] →
    z.mfa = y.mfa.newRunList y.cfg.active ∧ z.cyt = y.cyt ∧ z.cap = y.cap ∧ z.ports = y.ports
  empty : cls = .calibration → y.cyt.pendingList = [] → z.cap = y.cap ∧ z.ports = y.ports

/-- OPS, MFA and KFE at an apply. -/
theorem assessors (t cls O) (y : State) : Assessors t cls O y (((y.applyOps O).applyMfa t cls O).applyKfe cls O) := by
  have ho : ∃ o, y.applyOps O = { y with ops := o } ∧ o = if O.alsinEnable ≠ y.cfg.active.alsinEnable ∨
      O.alsinActive ≠ y.cfg.active.alsinActive then y.ops.merge y.cfg.active else y.ops := by
    unfold State.applyOps; split
    · exact ⟨_, rfl, rfl⟩
    · exact ⟨_, rfl, rfl⟩
  obtain ⟨o, ho1, ho2⟩ := ho
  rw [ho1]
  let m0 : Mfa := if cls = .calibration then y.mfa else y.mfa.newRunList y.cfg.active
  have hm : State.applyMfa { y with ops := o } t cls O = if O.segOffset ≠ y.cfg.active.segOffset then State.segOffsetApply
      { y with ops := o, mfa := m0 } t else { y with ops := o, mfa := m0 } := by
    unfold State.applyMfa State.modMfa; dsimp only
    have : (if cls = .calibration then ({ y with ops := o } :
        State) else State.setMfa { y with ops := o } (y.mfa.newRunList y.cfg.active)) = { y with ops := o, mfa := m0 } := by
      show _ = ({ y with ops := o, mfa := if cls = .calibration then y.mfa else y.mfa.newRunList y.cfg.active } : State)
      split <;> rfl
    rw [this]
  rw [hm]
  let w : State := { y with ops := o, mfa := m0 }
  generalize hq : (if O.segOffset ≠ y.cfg.active.segOffset then State.segOffsetApply { y with ops := o, mfa := m0 } t else
      { y with ops := o, mfa := m0 }) = q
  have F : AssessFrame w q ∧ q.kfe = y.kfe ∧ q.kna = y.kna := by
    rw [← hq]; split
    · exact w.segOffsetApply_frame t
    · exact ⟨.refl _, rfl, rfl⟩
  have key : (State.applyKfe q cls O) = { q with kfe := (State.applyKfe q cls O).kfe } := rfl
  refine ⟨⟨F.1.running, F.1.startUp, F.1.timebase, F.1.pending⟩, F.1.cfg, F.1.adec, F.1.smap, F.1.igsu, F.1.ops.trans ho2, F.2.2,
      ?_, ?_, ?_, ?_, ?_, ?_⟩
  · show vmapIdx (fun r v => if resetsGain cls O q.cfg.active r then ⟨(q.cfg.active.row r).initGain, 0⟩ else v) q.kfe.rows = _
    rw [F.2.1, show q.cfg = y.cfg from F.1.cfg]
  · show q.kfe.chain = _; rw [F.2.1]
  · intro hc hs
    have : q = w := by rw [← hq, if_neg (by simp [hs])]
    show q.mfa = _ ∧ q.cyt = _ ∧ q.cap = _ ∧ q.ports = _
    rw [this]; refine ⟨?_, rfl, rfl, rfl⟩
    show m0 = _; exact if_pos hc
  · intro hc hs hn
    have hqq : q = w.segOffsetApply t := by rw [← hq, if_pos hs]
    show q.mfa = _ ∧ q.cyt.pendingList = _
    have hm0 : m0 = y.mfa := if_pos hc
    have := State.segOffsetApply_moved w t hn
    rw [hqq, this.1, this.2.1]
    show ({ m0 with segments := [], last := _ } : Mfa) = _ ∧
        (List.map (fun i => if i.misfire.isSome then i else SlotInst.warmup m0.counts i) _) = _
    rw [hm0]; exact ⟨rfl, rfl⟩
  · intro hc hn
    have hm0 : m0 = y.mfa.newRunList y.cfg.active := if_neg hc
    have : q = w := by
      rw [← hq]; split
      · rw [State.segOffsetApply_empty _ t (by exact hn)]
        show ({ w with mfa := { m0 with last := none, segments := [] } } : State) = w
        rw [hm0]; show ({ w with mfa := y.mfa.newRunList y.cfg.active } : State) = _
        rw [← hm0]
      · rfl
    show q.mfa = _ ∧ q.cyt = _ ∧ q.cap = _ ∧ q.ports = _
    rw [this]; exact ⟨hm0, rfl, rfl, rfl⟩
  · intro _ hn
    show q.cap = _ ∧ q.ports = _
    rw [← hq]; split
    · rw [State.segOffsetApply_empty _ t (by exact hn)]; exact ⟨rfl, rfl⟩
    · exact ⟨rfl, rfl⟩

/-- The capture unit changes itself and the ports alone. -/
theorem CapFrame.self {s u : State} (h : CapFrame s u) (c : Cap) (P : PerPort PortState) :
    { u with cap := c, ports := P } = { s with cap := c, ports := P } := by
  obtain ⟨⟨⟨⟨⟨h1, h2, h3, h4⟩, h5, h6, h7⟩, h8, h9⟩, h10, h11, h12⟩, h13⟩ := h
  rw [h1, h2, h3, h4, h5, h6, h7, h8, h9, h10, h11, h12, h13]

theorem State.applyCap_frame (y : State) (t cls) : CapFrame y (y.applyCap t cls) := by
  unfold State.applyCap
  cases cls
  · exact .refl _
  · exact y.capRunList_frame t
  · exact (y.capRunList_frame t).trans (State.capGeometry_frame _ t)

theorem afterAdec (t cls O) (x : State) : AfterAdec t cls O x
    ((((((((x.applySmap t cls).applyKna cls O).applyCyt cls O).applyOps O).applyMfa t cls O).applyKfe cls O).applyCap t cls)) :=
    by
  generalize hy : ((x.applySmap t cls).applyKna cls O).applyCyt cls O = y
  have M := assessors t cls O y
  generalize hz : ((y.applyOps O).applyMfa t cls O).applyKfe cls O = z at M
  have C := State.applyCap_frame z t cls
  have K := State.applyKna_frame (x.applySmap t cls) cls O
  -- facts of y
  have hs : ApplyFrame x (x.applySmap t cls) ∧ (x.applySmap t cls).cfg = x.cfg ∧ (x.applySmap t cls).ops = x.ops ∧
      (x.applySmap t cls).kna = x.kna ∧ (x.applySmap t cls).mfa = x.mfa ∧ (x.applySmap t cls).cyt = x.cyt ∧
      (x.applySmap t cls).adec = (if cls = .layout ∧ x.adec.sync =
          .fullSync then { x.adec with nextAngle := x.adec.cycleAngle x.cfg.active t + 1 } else x.adec) ∧
      (x.applySmap t cls).igsu = (if cls = .layout then ⟨none, none, none, none, none, none⟩ else x.igsu) ∧
      (x.applySmap t cls).kfe.rows = x.kfe.rows ∧
      (x.applySmap t cls).kfe.chain = (if cls = .layout then x.kfe.chain.map fun c =>
          { c with knock := none, guard := none } else x.kfe.chain) ∧
      (x.applySmap t cls).smap = (if cls = .calibration then x.smap else if cls =
          .geometry then { x.smap with marks := .replicate 6 false } else if x.adec.sync =
          .fullSync then ⟨some (x.cfg.active.runStart + x.adec.cycleAngle x.cfg.active t / x.cfg.active.slotLen),
          .replicate 6 false⟩ else { x.smap with marks := .replicate 6 false }) ∧
      CapKeeps t (x.cfg.active.holdMs * 2000) x.cap (x.applySmap t cls).cap ∧
      (cls ≠ .layout → (x.applySmap t cls).cap = x.cap ∧ (x.applySmap t cls).ports = x.ports) ∧
      (cls = .layout → (x.applySmap t cls).cap = (x.abandonWindows t true).cap ∧
        (x.applySmap t cls).ports = (x.abandonWindows t true).ports) ∧
      ((∀ σ, x.cap.recordingOn σ = none) → (x.applySmap t cls).cap = x.cap ∧ (x.applySmap t cls).ports = x.ports) := by
    unfold State.applySmap
    cases cls
    · exact ⟨⟨rfl, rfl, rfl, rfl⟩, rfl, rfl, rfl, rfl, rfl, rfl, rfl, rfl, rfl, rfl, .refl .., fun _ => ⟨rfl, rfl⟩, by simp, fun _ =>
          ⟨rfl, rfl⟩⟩
    · have W := x.abandonWindows_frame t true
      have Wk := State.abandonWindows_keeps x t true
      have Wi := fun h => State.abandonWindows_idle x h t true
      dsimp only
      generalize x.abandonWindows t true = w at W Wk Wi
      have Wc : w.cfg = x.cfg := W.1.cfg
      have Wa : w.adec = x.adec := W.1.adec
      have Wkfe : w.kfe = _ := W.2.2.2.2
      by_cases hf : x.adec.sync = .fullSync
      · simp only [hf, ↓reduceIte, and_self]
        refine ⟨⟨W.1.running, W.1.startUp, W.1.timebase, W.1.pending⟩, W.1.cfg, W.1.ops, W.2.2.1, W.2.1, W.2.2.2.1, ?_, rfl, by
            show w.kfe.rows = _; rw [Wkfe], by show w.kfe.chain = _; rw [Wkfe], ?_, Wk, fun h => absurd rfl h, fun _ => ⟨rfl, rfl⟩, Wi⟩
        · show ({ w.adec with nextAngle := _ } : Adec) = _; rw [Wa]; simp only [hf]
        · show Smap.position w.cfg.active _ = _; rw [Wc]; rfl
      · simp only [hf, ↓reduceIte, and_false]
        exact ⟨⟨W.1.running, W.1.startUp, W.1.timebase, W.1.pending⟩, W.1.cfg, W.1.ops, W.2.2.1, W.2.1, W.2.2.2.1, Wa, rfl, by
            show w.kfe.rows = _; rw [Wkfe], by show w.kfe.chain = _; rw [Wkfe], rfl, Wk, fun h => absurd rfl h, fun _ => ⟨rfl, rfl⟩, Wi⟩
    · exact ⟨⟨rfl, rfl, rfl, rfl⟩, rfl, rfl, rfl, rfl, rfl, rfl, rfl, rfl, rfl, rfl, .refl .., fun _ => ⟨rfl, rfl⟩, by simp, fun _ =>
          ⟨rfl, rfl⟩⟩
  obtain ⟨s1, s2, s3, s4, s5, s6, s7, s8, s9, s10, s11, s12, s13, s15, s14⟩ := hs
  have KC := State.applyKna_congr x (x.applySmap t cls) cls O s4 s6 s2
  obtain ⟨k1, k2, k3, k4, k5, k6, k7, k8, k9, k10, k11⟩ := K
  have hyc : y.adec = (x.applySmap t cls).adec ∧ y.smap = (x.applySmap t cls).smap ∧ y.igsu = (x.applySmap t cls).igsu ∧ y.ops =
      (x.applySmap t cls).ops ∧ y.mfa = (x.applySmap t cls).mfa ∧ y.kfe = (x.applySmap t cls).kfe ∧ y.cap =
      (x.applySmap t cls).cap ∧ y.ports = (x.applySmap t cls).ports ∧ y.cfg = (x.applySmap t cls).cfg ∧
      ApplyFrame (x.applySmap t cls) y ∧ y.kna = (x.applyKna cls O).kna ∧
      y.cyt = (if cls = .calibration then (x.applyKna cls O).cyt else (x.applyKna cls O).cyt.newRunList O x.cfg.active) := by
    rw [← hy]; unfold State.applyCyt
    split
    · exact ⟨k1, k2, k3, k4, k5, k6, k7, k8, k9, k10, KC.1, KC.2⟩
    · refine ⟨k1, k2, k3, k4, k5, k6, k7, k8, k9, ⟨k10.1, k10.2, k10.3, k10.4⟩, KC.1, ?_⟩
      show ((x.applySmap t cls).applyKna cls O).cyt.newRunList O ((x.applySmap t cls).applyKna cls O).cfg.active = _
      rw [KC.2, k9, s2]
  obtain ⟨y1, y2, y3, y4, y5, y6, y7, y8, y9, y10, y11, y12⟩ := hyc
  have yc : y.cfg = x.cfg := y9.trans s2
  have xk := (State.applyKna_frame x cls O).2.2.2.2.2.2.2.2.2.2
  refine ⟨((s1.trans y10).trans M.frame).trans C.toApplyFrame, (C.cfg.trans M.cfg).trans yc, ?_, ?_, ?_, ?_, ?_, ?_, ?_, ?_, ?_,
      ?_, ?_, ?_, ?_⟩
  · rw [C.adec, M.adec, y1, s7]
  · rw [C.smap, M.smap, y2, s11]
  · rw [C.igsu, M.igsu, y3, s8]
  · rw [C.ops, M.ops, yc, y4, s3]
  · rw [C.kna, M.kna, y11]
  · rw [C.kfe, M.rows, yc, y6, s9]
  · rw [C.kfe, M.chain, y6, s10]
  · intro hc ho
    subst hc
    have := M.same rfl (by rw [yc]; exact ho)
    show z.mfa = _ ∧ z.cyt = _ ∧ z.cap = _ ∧ z.ports = _
    rw [this.1, this.2.1, this.2.2.1, this.2.2.2, y5, y12, y7, y8, s5, if_pos rfl]
    exact ⟨rfl, rfl, s13 (by simp)⟩
  · intro hc ho hn
    subst hc
    rw [if_pos rfl] at y12
    have e : y.cyt.pendingList = x.cyt.pendingList := by rw [y12, xk]
    have := M.moved rfl (by rw [yc]; exact ho) (by rw [e]; exact hn)
    show z.mfa = _ ∧ z.cyt.pendingList = _
    rw [this.1, this.2, e, y5, s5]; exact ⟨rfl, rfl⟩
  · intro hc
    rw [if_neg hc] at y12
    have := M.new hc (by rw [y12]; rfl)
    rw [C.mfa, C.cyt, this.1, this.2.1, yc, y5, s5, y12]; exact ⟨rfl, rfl⟩
  · intro hc
    rw [if_neg hc] at y12
    have m := M.new hc (by rw [y12]; rfl)
    refine ⟨z, ?_, M.cfg.trans yc, ?_, ?_, ?_, ?_, ?_, (C.self z.cap z.ports).symm, ?_⟩
    · rw [m.2.2.1, y7]; exact s12
    · rw [M.adec, y1, s7]; split <;> rfl
    · rw [M.adec, y1, s7]; split <;> rfl
    · intro h
      rw [m.2.2.1, m.2.2.2, y7, y8]
      rcases h with h | h
      · exact s13 (by rw [h]; simp)
      · exact s14 h
    · unfold State.applyCap; cases cls
      · exact absurd rfl hc
      · rfl
      · rfl
    · unfold State.applyCap; cases cls
      · exact absurd rfl hc
      · rfl
      · rfl
    · intro h
      rw [m.2.2.1, m.2.2.2, y7, y8]
      exact s15 h
  · intro hc h
    subst hc
    rw [if_pos rfl] at y12
    show z.cap = _ ∧ z.ports = _
    have e := s13 (by simp)
    rcases h with h | h
    · have := M.same rfl (by rw [yc]; exact h)
      rw [this.2.2.1, this.2.2.2, y7, y8]; exact e
    · have := M.empty rfl (by rw [y12, xk]; exact h)
      rw [this.1, this.2, y7, y8]; exact e
  · intro hc h
    subst hc
    have hyy : y = x.applyKna .calibration O := hy.symm
    rw [← hz, hyy]
    show State.applyKfe (State.applyMfa _ t .calibration O) .calibration O = _
    congr 1
    have e : ((x.applyKna .calibration O).applyOps O).cfg = x.cfg := by
      have := (State.applyKna_frame x .calibration O).2.2.2.2.2.2.2.2.1
      unfold State.applyOps
      split <;> exact this
    unfold State.applyMfa
    dsimp only
    rw [if_pos rfl, if_pos (by rw [e]; exact h)]

/-! ### ADEC -/

/-- ADEC at a GEOMETRY apply, before it restarts SEEK (R2, R19). -/
def restartedAdec (s : State) : Adec :=
  { s.adec with polarity := polarityFor s.cfg.staged s.adec.polarity, verifyFails := 0, camFaults := 0 }

theorem polarityFor_eq (img : Image) (p) : polarityFor img p = polarityAfter img p := by
  unfold polarityFor polarityAfter
  rcases h : img.polMode with _ | _ | n
  · rfl
  · rfl
  · simp

/-- ADEC's part of an apply, with and without a stall timeout that has passed (R19). -/
theorem State.applyAdec_eq (s : State) (t cls) :
    let s1 := s.setCfg s.cfg.apply
    let base := if cls = .geometry then (if s.adec.sync = .halted then s1.setAdec (restartedAdec s) else s1.changeSync t
        ((restartedAdec s).enterSeek none) .commit) else s1
    (StallPassed t s → s1.applyAdec t cls s.cfg.active = base.stallNow t) ∧
        (¬ StallPassed t s → s1.applyAdec t cls s.cfg.active = base) := by
  intro s1 base
  have hb : s1.applyAdec t cls s.cfg.active = if decide (s.cfg.active.stallMs ≠ s1.cfg.active.stallMs) && base.stallDue t then
      base.stallNow t else base := rfl
  have hcfg : base.cfg = s1.cfg := by
    show (if _ then _ else _ : State).cfg = _
    split
    · split
      · rfl
      · exact (s1.changeSync_frame t _ _).1.cfg
    · rfl
  have hd : (decide (s.cfg.active.stallMs ≠ s1.cfg.active.stallMs) && base.stallDue t) = true ↔ StallPassed t s := by
    unfold State.stallDue
    rw [hcfg]
    have h1 : (base.adec.sync ≠ .halted ↔ s.adec.sync ≠ .halted) ∧ base.adec.stallRef = s.adec.stallRef := by
      show ((if _ then _ else _ : State).adec.sync ≠ _ ↔ _) ∧ (if _ then _ else _ : State).adec.stallRef = _
      split
      · split
        · next h => exact ⟨Iff.rfl, rfl⟩
        · next h =>
          rw [(s1.changeSync_frame t _ _).2]
          exact ⟨⟨fun _ => h, fun _ => by simp [Adec.enterSeek]⟩, rfl⟩
      · exact ⟨Iff.rfl, rfl⟩
    rw [h1.2]
    simp only [Bool.and_eq_true, decide_eq_true_eq]
    rw [h1.1]
    rfl
  rw [hb]
  exact ⟨fun h => if_pos (hd.mpr h), fun h => if_neg (fun k => h (hd.mp k))⟩

/-- What ADEC's part of an apply leaves alone. -/
structure AdecStage (t : Stamp) (s a : State) : Prop where
  frame : SyncFrame (s.setCfg s.cfg.apply) a
  weak : BlocksKept s a
  keep : CapKeeps t (s.cfg.staged.holdMs * 2000) s.cap a.cap
  cycle : a.adec.cycle = s.adec.cycle

theorem AdecStage.changeSync (t) (s a : State) (h : AdecStage t s a) (A c) (hc : A.cycle = s.adec.cycle) :
    AdecStage t s (a.changeSync t A c) := by
  have F := a.changeSync_frame t A c
  refine ⟨h.frame.trans F.1, h.weak.trans (State.changeSync_kept a t A c).1, ?_, by rw [F.2]; exact hc⟩
  have := State.changeSync_keeps a t A c
  rw [h.frame.cfg] at this
  exact h.keep.trans this

theorem State.applyAdec_base (s : State) (t) (cls : CommitClass) :
    AdecStage t s (if cls = .geometry then (if s.adec.sync =
        .halted then (s.setCfg s.cfg.apply).setAdec (restartedAdec s) else (s.setCfg s.cfg.apply).changeSync t
        ((restartedAdec s).enterSeek none) .commit) else s.setCfg s.cfg.apply) := by
  have h0 : AdecStage t s (s.setCfg s.cfg.apply) := ⟨⟨⟨rfl, rfl, rfl, rfl⟩, rfl, rfl, rfl⟩, ⟨rfl, fun _ => ⟨rfl, rfl⟩, rfl, id⟩,
      .refl .., rfl⟩
  split
  · split
    · exact ⟨⟨⟨rfl, rfl, rfl, rfl⟩, rfl, rfl, rfl⟩, ⟨rfl, fun _ => ⟨rfl, rfl⟩, rfl, id⟩, .refl .., rfl⟩
    · exact AdecStage.changeSync t s _ h0 _ _ rfl
  · exact h0

theorem State.applyAdec_stage (s : State) (t) (cls : CommitClass) :
    AdecStage t s ((s.setCfg s.cfg.apply).applyAdec t cls s.cfg.active) := by
  have E := State.applyAdec_eq s t cls
  have B := State.applyAdec_base s t cls
  by_cases h : StallPassed t s
  · rw [E.1 h]; exact AdecStage.changeSync t s _ B _ _ B.cycle
  · rw [E.2 h]; exact B

/-! ### KFE and KNA -/

theorem resetsGain_iff (cls O N r) : (resetsGain cls O N r = true) ↔ (cls = .geometry ∨ (O.row r).initGain ≠ (N.row r).initGain ∨
    ((O.row r).autoRange = true ∧ (N.row r).autoRange = false)) := by
  unfold resetsGain; simp [or_assoc]

theorem State.applyKna_cyl (x : State) (cls O) (c : Cyl) :
    ((x.applyKna cls O).kna.cyl.get c) =
      { ref := if cls = .geometry then max x.cfg.active.refInit x.cfg.active.refFloor
               else if O.refFloor < x.cfg.active.refFloor then max x.cfg.active.refFloor (x.kna.cyl.get c).ref
               else (x.kna.cyl.get c).ref
        retard := if cls ≠ .calibration ∧ x.cfg.active.hasCyl c = false then 0
                  else if x.cfg.active.retardMax < O.retardMax then min x.cfg.active.retardMax (x.kna.cyl.get c).retard
                  else (x.kna.cyl.get c).retard
        recovery := if cls ≠ .calibration ∧ x.cfg.active.hasCyl c = false then 0 else (x.kna.cyl.get c).recovery } := by
  unfold State.applyKna State.modCyt; dsimp only
  cases cls <;> by_cases a : x.cfg.active.retardMax < O.retardMax <;> by_cases b :
      O.refFloor < x.cfg.active.refFloor <;> by_cases e : x.cfg.active.hasCyl c = true <;>
    simp [a, b, e, Kna.clampRetard, Kna.raiseFloor, Kna.restart, Kna.newRunList, Image.refStart]

theorem State.applyKna_gref (x : State) (cls O) (σ : Sensor) :
    ((x.applyKna cls O).kna.gref.get σ) = if cls = .geometry then max x.cfg.active.refInit x.cfg.active.refFloor else if
        O.refFloor < x.cfg.active.refFloor then max x.cfg.active.refFloor (x.kna.gref.get σ) else x.kna.gref.get σ := by
  unfold State.applyKna State.modCyt; dsimp only
  cases cls <;> by_cases a : x.cfg.active.retardMax < O.retardMax <;> by_cases b : O.refFloor < x.cfg.active.refFloor <;>
    simp [a, b, Kna.clampRetard, Kna.raiseFloor, Kna.restart, Kna.newRunList, Image.refStart]

theorem State.applyKna_entry (x : State) (cls O) (c : Cyl) : (x.applyKna cls O).cyt.entry.get c =
    if x.cfg.active.retardMax < O.retardMax ∧ x.cfg.active.retardMax < (x.kna.cyl.get c).retard then
    { x.cyt.entry.get c with retard := x.cfg.active.retardMax } else x.cyt.entry.get c := by
  unfold State.applyKna State.modCyt; dsimp only
  cases cls <;> by_cases a : x.cfg.active.retardMax < O.retardMax <;> by_cases b : O.refFloor < x.cfg.active.refFloor <;>
    simp [a, b, Cyt.clampRetard]

/-! ### The whole apply -/

theorem State.stallNow_adec (s : State) (t) (b : State) (hc : b.adec.cycle = s.adec.cycle) : (b.stallNow t).adec.sync = .halted ∧
    (b.stallNow t).adec.period = 0 ∧ (b.stallNow t).adec.prevPeriod = 0 ∧ (b.stallNow t).adec.toothPeriod = 0 ∧
    (b.stallNow t).adec.trev = 0 ∧
      (b.stallNow t).adec.toothIndex = 0 ∧ (b.stallNow t).adec.lastEdge = none ∧ (b.stallNow t).adec.verifyFails = 0 ∧
          (b.stallNow t).adec.camFaults = 0 ∧
      (b.stallNow t).adec.cycle = s.adec.cycle := by
  have : (b.stallNow t).adec = b.adec.enterHalted b.cfg.active := (b.changeSync_frame t _ _).2
  rw [this]; exact ⟨rfl, rfl, rfl, rfl, rfl, rfl, rfl, rfl, rfl, hc⟩

theorem ports_config (P : PerPort PortState) (r : Record) : ((P.map (·.offer r)).map (·.raiseAlert alertConfig)) =
    P.map fun x => { offered r x with alerts := (offered r x).alerts ||| 8#5 } := by
  rw [PerPort.map_map]
  congr 1; funext x; rw [PortState.offer_eq]; rfl

theorem State.capRunList_ends (y : State) (t) (r) (hu : y.cap.unit = .filling) (ha : y.cap.activeRequest = some r) (hk : r.kind =
    .knockRaw) (hn : ∀ c, r.target = some c → y.cfg.active.hasCyl c = false) :
    (y.capRunList t).cap.unit = .held ∧ (y.capRunList t).cap.window = none ∧ (y.capRunList t).cap.holdStart = t ∧
        (y.capRunList t).cap.holdTicks = y.cfg.active.holdMs * 2000 := by
  unfold State.capRunList
  rw [Cap.fillingAs_eq hu ha, if_pos hk]
  dsimp only
  have : r.target.any y.cfg.active.hasCyl = false := by
    cases h : r.target with
    | none => rfl
    | some c => simpa using hn c h
  rw [if_neg (by simp [this])]
  split
  · next w hw =>
    rw [State.endFilling_eq (s := y.modCap fun c => c.closeWindow w 0x0008) (by exact ha)]
    exact ⟨rfl, rfl, rfl, rfl⟩
  · rw [State.endFilling_eq ha]; exact ⟨rfl, rfl, rfl, rfl⟩

/-- R173: the re-arming at a GEOMETRY apply, where it arms no request of a free unit. -/
theorem State.capGeometry_idle (y : State) (t : Stamp) (hs : y.adec.sync ≠ .fullSync)
    (hu : y.cap.unit = .held ∨ (y.cap.unit = .free ∧ ∀ r ∈ y.cap.requests, r.named &&& 1#8 ≠ r.named)) :
    (y.capGeometry t).cap =
        { y.cap with
          requests := y.cap.requests.map fun r =>
            if r.state = .active then r
            else { r with latched := r.named &&& 1#8, state := if r.named &&& 1#8 = r.named then .triggered else .waiting } } ∧
      (y.capGeometry t).ports = y.ports := by
  have harm : (y.cap.requests.map fun r => if r.state = .active then r else r.rearm (armConds y)) =
      y.cap.requests.map fun r =>
        if r.state = .active then r
        else { r with latched := r.named &&& 1#8, state := if r.named &&& 1#8 = r.named then .triggered else .waiting } := by
    have : armConds y = 1#8 := by
      unfold armConds
      rw [if_neg hs]
      rfl
    refine List.map_congr_left fun r _ => ?_
    rw [Request.rearm_eq, this, BitVec.and_comm 1#8 r.named]
  have hdef : y.capGeometry t =
      (y.setCap { y.cap with
                  requests := y.cap.requests.map fun r => if r.state = .active then r else r.rearm (armConds y) }).grant t := rfl
  rw [hdef, harm]
  generalize hl : (y.cap.requests.map fun r =>
    if r.state = .active then r
    else { r with latched := r.named &&& 1#8, state := if r.named &&& 1#8 = r.named then .triggered else .waiting }) = l
  have hg : (y.setCap { y.cap with requests := l }).grant t = y.setCap { y.cap with requests := l } := by
    rcases hu with hu | ⟨hu, hn⟩
    · exact if_neg (by show ¬ y.cap.unit = _; rw [hu]; simp)
    · refine State.grant_idle (fun q (hq : q ∈ l) => ?_) t
      rw [← hl] at hq
      obtain ⟨r, hr, rfl⟩ := List.mem_map.mp hq
      split
      · rename_i h
        rw [h]
        simp
      · rw [if_neg (hn r hr)]
        simp
  rw [hg]
  exact ⟨rfl, rfl⟩

/-- An apply that leaves FULL_SYNC takes the sync loss (R19, R21). -/
theorem State.applyAdec_lost (s : State) (t) (cls : CommitClass) (hf : s.adec.sync = .fullSync)
    (hc : cls = .geometry ∨ StallPassed t s) :
    let x := (s.setCfg s.cfg.apply).applyAdec t cls s.cfg.active
    x.smap = ⟨none, .replicate 6 false⟩ ∧ x.igsu = ⟨none, none, none, none, none, none⟩ ∧
      x.mfa.segments = [] ∧ x.mfa.history = [] ∧ x.mfa.last = none ∧ x.cyt.pendingList = [] ∧
      ∀ σ : Sensor, (x.kfe.chain.get σ).knock = none ∧ (x.kfe.chain.get σ).guard = none := by
  have E := State.applyAdec_eq s t cls
  dsimp only at E ⊢
  generalize hs1 : s.setCfg s.cfg.apply = s1 at E ⊢
  have hf : s1.adec.sync = .fullSync := by rw [← hs1]; exact hf
  have hf' : s.adec.sync = .fullSync := by rw [← hf, ← hs1]; rfl
  have geoL := State.changeSync_lost s1 t ((restartedAdec s).enterSeek none) .commit hf (by simp [Adec.enterSeek])
  by_cases h : StallPassed t s
  · rw [E.1 h]
    by_cases hg : cls = .geometry
    · rw [if_pos hg, if_neg (by rw [hf']; simp)]
      dsimp only at geoL
      generalize hw : s1.changeSync t ((restartedAdec s).enterSeek none) .commit = w at geoL ⊢
      have hwa : w.adec = (restartedAdec s).enterSeek none := by rw [← hw]; exact (s1.changeSync_frame t _ _).2
      -- halting from SEEK keeps what the loss has cleared
      let u := w.stallNow t
      have hus : u = State.lossEvents _ t _ := State.changeSync_eq w t _ _
      have hsq : w.adec.sync = .seek := by rw [hwa]; rfl
      unfold State.lossEvents at hus; dsimp only at hus
      rw [hsq] at hus
      simp only [reduceCtorEq, false_and, ↓reduceIte, or_self, Adec.enterHalted] at hus
      show u.smap = _ ∧ u.igsu = _ ∧ u.mfa.segments = _ ∧ u.mfa.history = _ ∧ u.mfa.last = _ ∧ u.cyt.pendingList = _ ∧ ∀ σ :
          Sensor, (u.kfe.chain.get σ).knock = none ∧ (u.kfe.chain.get σ).guard = none
      rw [hus]
      exact ⟨geoL.1, geoL.2.1, geoL.2.2.1, rfl, geoL.2.2.2.2.1, geoL.2.2.2.2.2.1, geoL.2.2.2.2.2.2⟩
    · rw [if_neg hg]
      exact State.changeSync_lost s1 t _ .stall hf (by simp [Adec.enterHalted])
  · rw [E.2 h, if_pos (hc.resolve_right h), if_neg (by rw [hf']; simp)]; exact geoL

/-- An apply in two stages: `x` is the state with the new image after ADEC's part, and `v` the state after every block's part (R182). -/
structure ApplyStages (t : Stamp) (cls : CommitClass) (s x v : State) : Prop where
  after : AfterAdec t cls s.cfg.active x v
  stage : AdecStage t s x
  decoder : x = s.decoderApplied t cls
  act : x.cfg.active = s.cfg.staged
  cfg : v.cfg = s.cfg.apply
  cycle : v.adec.cycle = s.adec.cycle
  generation : v.cfg.generation = s.cfg.generation + 1
  halted : StallPassed t s → x.adec.sync = .halted
  stalled : StallPassed t s →
    x.adec.sync = .halted ∧ x.adec.period = 0 ∧ x.adec.prevPeriod = 0 ∧ x.adec.toothPeriod = 0 ∧ x.adec.trev = 0 ∧
      x.adec.toothIndex = 0 ∧ x.adec.lastEdge = none ∧ x.adec.verifyFails = 0 ∧ x.adec.camFaults = 0 ∧
      x.adec.cycle = s.adec.cycle
  plain : cls ≠ .geometry → ¬ StallPassed t s → x = s.setCfg s.cfg.apply
  still : cls = .geometry → s.adec.sync = .halted → x = (s.setCfg s.cfg.apply).setAdec (restartedAdec s)
  sought : cls = .geometry → s.adec.sync ≠ .halted → ¬ StallPassed t s →
    x = (s.setCfg s.cfg.apply).changeSync t ((restartedAdec s).enterSeek none) .commit
  seek : cls = .geometry → s.adec.sync ≠ .halted → ¬ StallPassed t s → x.adec = (restartedAdec s).enterSeek none
  lost : s.adec.sync = .fullSync → (cls = .geometry ∨ StallPassed t s) →
    x.smap = ⟨none, .replicate 6 false⟩ ∧ x.igsu = ⟨none, none, none, none, none, none⟩ ∧
      x.mfa.segments = [] ∧ x.mfa.history = [] ∧ x.mfa.last = none ∧ x.cyt.pendingList = [] ∧
      ∀ σ : Sensor, (x.kfe.chain.get σ).knock = none ∧ (x.kfe.chain.get σ).guard = none

/-- ADEC's part of an apply, in the terms of claims (R19, R18). -/
theorem State.applyAdec_decoder (s : State) (t) (cls : CommitClass) :
    (s.setCfg s.cfg.apply).applyAdec t cls s.cfg.active = s.decoderApplied t cls := by
  have E := State.applyAdec_eq s t cls
  have W : (if cls = .geometry then (if s.adec.sync = .halted then (s.setCfg s.cfg.apply).setAdec (restartedAdec s)
        else (s.setCfg s.cfg.apply).changeSync t ((restartedAdec s).enterSeek none) .commit) else s.setCfg s.cfg.apply) =
      (let new := s.cfg.staged
       let v : State := { s with cfg := ⟨new, new, s.cfg.generation + 1, false, none, none⟩ }
       let polarity := polarityAfter new s.adec.polarity
       if cls ≠ .geometry then v
       else if s.adec.sync = .halted then
         { v with adec := { s.adec with polarity := polarity, verifyFails := 0, camFaults := 0 } }
       else v.entered t { s.adec.seeking none 0 with polarity := polarity, verifyFails := 0 } .commit) := by
    have hr : restartedAdec s =
        { s.adec with polarity := polarityAfter s.cfg.staged s.adec.polarity, verifyFails := 0, camFaults := 0 } := by
      unfold restartedAdec; rw [polarityFor_eq]
    dsimp only
    by_cases h : cls = .geometry
    · rw [if_pos h, if_neg (not_not.mpr h)]
      split
      · rw [hr]; rfl
      · rw [State.changeSync_entered, hr]; rfl
    · rw [if_neg h, if_pos h]; rfl
  have C : (if cls = .geometry then (if s.adec.sync = .halted then (s.setCfg s.cfg.apply).setAdec (restartedAdec s)
        else (s.setCfg s.cfg.apply).changeSync t ((restartedAdec s).enterSeek none) .commit) else s.setCfg s.cfg.apply).cfg =
      s.cfg.apply := (State.applyAdec_base s t cls).frame.cfg
  dsimp only at E
  unfold State.decoderApplied
  dsimp only at W ⊢
  rw [← W]
  by_cases h : StallPassed t s
  · rw [E.1 h, if_pos h]
    generalize (if cls = .geometry then _ else _ : State) = b at C
    unfold State.stallNow
    rw [State.changeSync_entered, C]
    rfl
  · rw [E.2 h, if_neg h]

/-- The two stages of an apply. -/
theorem applyStages (s : State) (t) (cls : CommitClass) :
    ApplyStages t cls s ((s.setCfg s.cfg.apply).applyAdec t cls s.cfg.active)
      ((s.setCfg s.cfg.apply).applyEffects t cls s.cfg.active) := by
  let s1 := s.setCfg s.cfg.apply
  have E : (StallPassed t s → s1.applyAdec t cls s.cfg.active =
      (if cls = .geometry then (if s.adec.sync = .halted then s1.setAdec (restartedAdec s) else s1.changeSync t
      ((restartedAdec s).enterSeek none) .commit) else s1).stallNow t) ∧ (¬ StallPassed t s → s1.applyAdec t cls s.cfg.active =
      (if cls = .geometry then (if s.adec.sync = .halted then s1.setAdec (restartedAdec s) else s1.changeSync t
      ((restartedAdec s).enterSeek none) .commit) else s1)) := State.applyAdec_eq s t cls
  have A : AdecStage t s (s1.applyAdec t cls s.cfg.active) := State.applyAdec_stage s t cls
  have D : s1.applyAdec t cls s.cfg.active = s.decoderApplied t cls := State.applyAdec_decoder s t cls
  have L := State.applyAdec_lost s t cls
  have R : AfterAdec t cls s.cfg.active (s1.applyAdec t cls s.cfg.active) (s1.applyEffects t cls s.cfg.active) :=
    afterAdec t cls s.cfg.active (s1.applyAdec t cls s.cfg.active)
  show ApplyStages t cls s (s1.applyAdec t cls s.cfg.active) (s1.applyEffects t cls s.cfg.active)
  dsimp only at L
  change _ → _ → (s1.applyAdec t cls s.cfg.active).smap = _ ∧ _ at L
  generalize s1.applyAdec t cls s.cfg.active = x at *
  generalize s1.applyEffects t cls s.cfg.active = v at *
  have xcfg : x.cfg = s.cfg.apply := A.frame.cfg
  have vcfg : v.cfg = s.cfg.apply := R.cfg.trans xcfg
  have hgeo : cls = .geometry → s.adec.sync ≠ .halted → ¬ StallPassed t s → x =
      s1.changeSync t ((restartedAdec s).enterSeek none) .commit := fun h1 h2 h3 => by
    rw [E.2 h3, if_pos h1, if_neg h2]
  refine ⟨R, A, D, by rw [xcfg]; rfl, vcfg, by rw [R.adec, ← A.cycle]; split <;> rfl, by rw [vcfg]; rfl, fun h => ?_, fun h => ?_,
    fun h1 h2 => by rw [E.2 h2, if_neg h1], fun h1 h2 => ?_, hgeo, fun h1 h2 h3 => ?_, L⟩
  · rw [E.1 h]; exact (State.stallNow_adec s t _ (State.applyAdec_base s t cls).cycle).1
  · rw [E.1 h]; exact State.stallNow_adec s t _ (State.applyAdec_base s t cls).cycle
  · rw [E.2 fun h => h.2.1 h2, if_pos h1, if_pos h2]
  · rw [hgeo h1 h2 h3]; exact (s1.changeSync_frame t _ _).2

/-- CAP at an apply that ends no capture and arms no request (R173). -/
theorem ApplyStages.cap {t : Stamp} {cls : CommitClass} {s x v : State} (G : ApplyStages t cls s x v) :
    ¬ StallPassed t s → (cls = .calibration ∧ s.cfg.active.segOffset = s.cfg.staged.segOffset) ∨ (cls = .layout ∧ NoRawCapture s) →
      v.cap = s.cap := by
  intro h1 h2
  show v.cap = _
  rcases h2 with ⟨hc, ho⟩ | ⟨hc, hn⟩
  · rw [(G.after.mfaSame hc (by rw [G.act]; exact ho)).2.2.1, G.plain (by rw [hc]; simp) h1]; rfl
  · have hf := Cap.fillingAs_raw hn
    have hxs : x = (s.setCfg s.cfg.apply) := G.plain (by rw [hc]; simp) h1
    obtain ⟨y, _, _, _, _, hy, hcap, _⟩ := G.after.capNew (by rw [hc]; simp)
    have := hy (.inr (by rw [hxs]; exact fun σ => Cap.recordingOn_none hf σ))
    rw [hcap, if_pos hc]
    unfold State.capRunList
    rw [this.1, hxs]; show (match s.cap.fillingAs .knockRaw with | none => y | some r => _).cap = _
    rw [hf]; show y.cap = _; rw [this.1, hxs]; rfl

/-- CAP at an apply whose run list lacks the cylinder of the KNOCK_RAW capture that fills (R173). -/
theorem ApplyStages.runList {t : Stamp} {cls : CommitClass} {s x v : State} (G : ApplyStages t cls s x v) :
    cls ≠ .calibration → ∀ r, s.cap.unit = .filling → s.cap.activeRequest = some r → r.kind = .knockRaw →
      (∀ c, r.target = some c → s.cfg.staged.hasCyl c = false) →
      v.cap.unit = .held ∧ v.cap.active = s.cap.active ∧ v.cap.window = none ∧ v.cap.holdStart = t ∧
        v.cap.holdTicks = s.cfg.staged.holdMs * 2000 ∧ (cls = .layout → v.cap.requests = s.cap.requests) := by
  intro hc r hfill hact hk hn
  show v.cap.unit = _ ∧ v.cap.active = _ ∧ v.cap.window = _ ∧ v.cap.holdStart = _ ∧ v.cap.holdTicks = _ ∧
      (_ → v.cap.requests = _)
  obtain ⟨y, yk, ycfg, _, _, _, hcap, _⟩ := G.after.capNew hc
  rw [G.act] at yk
  have K := G.stage.keep.trans yk
  have yact : y.cfg.active = s.cfg.staged := by rw [ycfg]; exact G.act
  have key : CapKeeps t (s.cfg.staged.holdMs * 2000) s.cap (y.capRunList t).cap ∧ (y.capRunList t).cap.unit = .held ∧
      (y.capRunList t).cap.window = none ∧ (y.capRunList t).cap.holdStart = t ∧ (y.capRunList t).cap.holdTicks =
      s.cfg.staged.holdMs * 2000 := by
    have q := State.capRunList_keeps y t
    rw [yact] at q
    refine ⟨K.trans q, ?_⟩
    rcases K.ends hfill with hf | hh
    · have ya : y.cap.activeRequest = some r := by
        unfold Cap.activeRequest; rw [K.active, K.requests]; exact hact
      have := State.capRunList_ends y t r hf ya hk (by rw [yact]; exact hn)
      rw [yact] at this; exact this
    · rw [q.idle (by rw [hh.1]; simp)]; exact hh
  generalize y.capRunList t = z at key hcap
  by_cases hl : cls = .layout
  · rw [if_pos hl] at hcap
    rw [hcap]
    exact ⟨key.2.1, key.1.active, key.2.2.1, key.2.2.2.1, key.2.2.2.2, fun _ => key.1.requests⟩
  · rw [if_neg hl] at hcap
    have : ∃ l, (z.capGeometry t).cap = { z.cap with requests := l } := by
      unfold State.capGeometry State.grant
      rw [if_neg (by show ¬ z.cap.unit = _; rw [key.2.1]; simp)]
      exact ⟨_, rfl⟩
    obtain ⟨l, hl'⟩ := this
    rw [hcap, hl']
    exact ⟨key.2.1, key.1.active, key.2.2.1, key.2.2.2.1, key.2.2.2.2, fun h => absurd h hl⟩

/-- CAP at a GEOMETRY apply that grants nothing (R173). -/
theorem ApplyStages.rearmed {t : Stamp} {cls : CommitClass} {s x v : State} (G : ApplyStages t cls s x v) :
    cls = .geometry → NothingArmed s →
      v.cap = { s.cap with
                requests := s.cap.requests.map fun r =>
                  if r.state = .active then r
                  else { r with latched := r.named &&& 1#8, state := if r.named &&& 1#8 = r.named then .triggered else .waiting } } := by
  intro hc hn
  show v.cap = _
  obtain ⟨y, yk, ycfg, ysync, _, yid, hcap, _⟩ := G.after.capNew (by rw [hc]; simp)
  have yi := yid (.inl hc)
  have hnf : s.cap.unit ≠ .filling := by rcases hn with h | h <;> (first | rw [h] | rw [h.1]) <;> simp
  have xc : x.cap = s.cap := G.stage.keep.idle hnf
  have yc : y.cap = s.cap := yi.1.trans xc
  rw [if_neg (by rw [hc]; simp)] at hcap
  have hr : y.capRunList t = y := by unfold State.capRunList; rw [Cap.fillingAs_none (by rw [yc]; exact hnf)]
  rw [hr] at hcap
  have hns : x.adec.sync ≠ .fullSync := by
    by_cases h : StallPassed t s
    · rw [G.halted h]; simp
    · by_cases hh : s.adec.sync = .halted
      · rw [G.still hc hh]; show s.adec.sync ≠ _; rw [hh]; simp
      · rw [G.seek hc hh h]; simp [Adec.enterSeek]
  have I := State.capGeometry_idle y t (by rw [ysync]; exact hns) (by rw [yc]; exact hn)
  rw [hcap, I.1, yc]

/-- An apply beside which no other record comes (R173, R20). -/
theorem ApplyStages.quiet {t : Stamp} {cls : CommitClass} {s x v : State} (G : ApplyStages t cls s x v) :
    ¬ StallPassed t s →
      (cls = .calibration ∧ s.cfg.active.segOffset = s.cfg.staged.segOffset) ∨ (cls = .layout ∧ NoRawCapture s) ∨
        (cls = .geometry ∧ s.adec.sync = .halted ∧ NothingArmed s) →
      v.ports = s.ports := by
  intro h1 h2
  rcases h2 with ⟨hc, ho⟩ | ⟨hc, hn⟩ | ⟨hc, hh, hn⟩
  · rw [(G.after.mfaSame hc (by rw [G.act]; exact ho)).2.2.2, G.plain (by rw [hc]; simp) h1]; rfl
  · have hf := Cap.fillingAs_raw hn
    have hxs : x = (s.setCfg s.cfg.apply) := G.plain (by rw [hc]; simp) h1
    obtain ⟨y, _, _, _, _, hy, _, hp, -, -⟩ := G.after.capNew (by rw [hc]; simp)
    have := hy (.inr (by rw [hxs]; exact fun σ => Cap.recordingOn_none hf σ))
    rw [hp, if_pos hc]
    unfold State.capRunList
    rw [this.1, hxs]; show (match s.cap.fillingAs .knockRaw with | none => y | some r => _).ports = _
    rw [hf]; show y.ports = _; rw [this.2, hxs]; rfl
  · obtain ⟨y, yk, ycfg, ysync, _, yid, _, hp, -, -⟩ := G.after.capNew (by rw [hc]; simp)
    have yi := yid (.inl hc)
    have hnf : s.cap.unit ≠ .filling := by rcases hn with h | h <;> (first | rw [h] | rw [h.1]) <;> simp
    have xc : x.cap = s.cap := G.stage.keep.idle hnf
    have yc : y.cap = s.cap := yi.1.trans xc
    rw [if_neg (by rw [hc]; simp)] at hp
    have hr : y.capRunList t = y := by unfold State.capRunList; rw [Cap.fillingAs_none (by rw [yc]; exact hnf)]
    rw [hr] at hp
    have hx0 := G.still hc hh
    have I := State.capGeometry_idle y t (by rw [ysync, hx0]; show s.adec.sync ≠ _; rw [hh]; simp) (by rw [yc]; exact hn)
    rw [hp, I.2, yi.2, hx0]; rfl

/-- A GEOMETRY apply beside which ADEC's SYNC record alone comes (R19, R20). -/
theorem ApplyStages.sync {t : Stamp} {cls : CommitClass} {s x v : State} (G : ApplyStages t cls s x v) :
    ¬ StallPassed t s → cls = .geometry → s.adec.sync ≠ .halted → NothingArmed s →
      v.ports = syncPorts s.ports (syncRecord t s.adec.cycle .seek .commit (polarityAfter s.cfg.staged s.adec.polarity)) := by
  intro h1 hc hh hn
  obtain ⟨y, yk, ycfg, ysync, _, yid, _, hp, -, -⟩ := G.after.capNew (by rw [hc]; simp)
  have yi := yid (.inl hc)
  have hnf : s.cap.unit ≠ .filling := by rcases hn with h | h <;> (first | rw [h] | rw [h.1]) <;> simp
  have xc : x.cap = s.cap := G.stage.keep.idle hnf
  have yc : y.cap = s.cap := yi.1.trans xc
  rw [if_neg (by rw [hc]; simp)] at hp
  have hr : y.capRunList t = y := by unfold State.capRunList; rw [Cap.fillingAs_none (by rw [yc]; exact hnf)]
  rw [hr] at hp
  have hxa := G.seek hc hh h1
  have I := State.capGeometry_idle y t (by rw [ysync, hxa]; simp [Adec.enterSeek]) (by rw [yc]; exact hn)
  rw [hp, I.2, yi.2, G.sought hc hh h1, State.changeSync_idle (s.setCfg s.cfg.apply) hnf]
  show syncPorts s.ports (syncRecord t s.adec.cycle .seek .commit (polarityFor s.cfg.staged s.adec.polarity)) = _
  rw [polarityFor_eq]

/-- MFA, CYT and CAP at a CALIBRATION apply that changes the segment offset (R81). -/
theorem ApplyStages.forced {t : Stamp} {cls : CommitClass} {s x v : State} (G : ApplyStages t cls s x v) (p : Port) :
    let u : State := { v with ports := configPorts v.ports t s.adec.cycle (s.cfg.generation + 1) p cls }
    cls = .calibration → ¬ StallPassed t s → s.cfg.active.segOffset ≠ s.cfg.staged.segOffset →
    (s.cyt.pendingList.map fun i => (i.slot, i.cycle)).Nodup →
    ∃ e : PerCyl Entry,
      (∀ c : Cyl, e.get c =
        let n := s.cfg.staged.retardMax
        if n < s.cfg.active.retardMax ∧ n < (s.kna.cyl.get c).retard then { s.cyt.entry.get c with retard := n }
        else s.cyt.entry.get c) ∧
      let x : State :=
        { s with cfg := u.cfg, ops := u.ops, kna := u.kna, mfa := { s.mfa with last := none }, cyt := { s.cyt with entry := e } }
      let y := (s.cyt.pendingList.filter fun i => i.misfire.isNone).foldl
        (fun v i => v.applyMisfire t i ⟨.notAssessed, some .warmup, none⟩) x
      u = { y with
            mfa := { y.mfa with segments := [] }, kfe := { y.kfe with rows := u.kfe.rows }
            ports := configPorts y.ports t s.adec.cycle (s.cfg.generation + 1) p cls } := by
  intro u hc hs ho hn
  subst hc
  have hm := G.after.calMoved rfl (by rw [G.act]; exact ho)
  have hops := G.after.ops
  have hkna := G.after.kna
  rw [G.plain (by simp) hs] at hm hops hkna
  generalize hX : s.setCfg s.cfg.apply = X at hm hops hkna
  have hent := State.applyKna_entry X .calibration s.cfg.active
  obtain ⟨k, c, hk⟩ := State.applyKna_fields X .calibration s.cfg.active
  rw [hk] at hent hkna hm
  have ho' : ∃ o, ({ X with kna := k, cyt := { X.cyt with entry := c } } : State).applyOps s.cfg.active =
      { X with kna := k, cyt := { X.cyt with entry := c }, ops := o } := by
    unfold State.applyOps
    split <;> exact ⟨_, rfl⟩
  obtain ⟨o, ho'⟩ := ho'
  rw [ho'] at hm
  have hvk : v.kna = k := hkna
  have hvo : v.ops = o := by
    rw [hm]
    exact ((State.segOffsetApply_frame _ t).1.ops)
  refine ⟨c, fun c' => ?_, ?_⟩
  · rw [show c.get c' = _ from hent c', ← hX]
    rfl
  · have F := State.segOffsetApply_moved { X with kna := k, cyt := { X.cyt with entry := c }, ops := o } t (by rw [← hX]; exact hn)
    have hx : ({ X with kna := k, cyt := { X.cyt with entry := c }, ops := o } : State).modMfa (fun m => { m with last := none }) =
        { s with cfg := u.cfg, ops := u.ops, kna := u.kna, mfa := { s.mfa with last := none }, cyt := { s.cyt with entry := c } } := by
      show _ = ({ s with cfg := v.cfg, ops := v.ops, kna := v.kna, mfa := { s.mfa with last := none }, cyt := _ } : State)
      rw [hvk, hvo, G.cfg, ← hX]
      rfl
    rw [hx] at F
    have hp : ({ X with kna := k, cyt := { X.cyt with entry := c }, ops := o } : State).cyt.pendingList = s.cyt.pendingList := by
      rw [← hX]; rfl
    rw [F.2.2, hp] at hm
    rw [show plainMisfire .notAssessed (some .warmup) = ⟨.notAssessed, some .warmup, none⟩ from rfl] at hm
    show ({ v with ports := configPorts v.ports t s.adec.cycle (s.cfg.generation + 1) p .calibration } : State) = _
    dsimp only at hm ⊢
    generalize List.foldl _ _ _ = y at hm ⊢
    rw [show u.kfe = v.kfe from rfl, hm]
    rfl

/-- CAP and the records at a CALIBRATION apply whose decisions are not forced (R173). -/
theorem ApplyStages.calibration {t : Stamp} {cls : CommitClass} {s x v : State} (G : ApplyStages t cls s x v) (p : Port) :
    let d := s.decoderApplied t cls
    cls = .calibration → s.cfg.active.segOffset = s.cfg.staged.segOffset ∨ d.cyt.pendingList = [] →
    v.cap = d.cap ∧ configPorts v.ports t s.adec.cycle (s.cfg.generation + 1) p cls =
      configPorts d.ports t s.adec.cycle (s.cfg.generation + 1) p cls := by
  intro d hc h
  have := G.after.calSame hc (by rw [G.act, G.decoder]; exact h)
  rw [this.1, this.2, G.decoder]
  exact ⟨rfl, rfl⟩

/-- CAP and the records at a LAYOUT apply (R173, R164). -/
theorem ApplyStages.layout {t : Stamp} {cls : CommitClass} {s x v : State} (G : ApplyStages t cls s x v) (p : Port) :
    let u : State := { v with ports := configPorts v.ports t s.adec.cycle (s.cfg.generation + 1) p cls }
    let d := s.decoderApplied t cls
    let told : Sensor → State → State := fun σ x => if (d.kfe.chain.get σ).knock.isSome then x.noticeAbandon t σ true else x
    cls = .layout →
    let w := (told .ks1 (told .ks0 { u with cap := d.cap, ports := d.ports })).runListTaken t
    u.cap = w.cap ∧ u.ports = configPorts w.ports t s.adec.cycle (s.cfg.generation + 1) p cls := by
  intro u d told hc
  obtain ⟨y, -, ycfg, -, ycyc, -, hcap, hports, hy, hab⟩ := G.after.capNew (by rw [hc]; simp)
  have hab := hab hc
  rw [if_pos hc] at hcap hports
  have hd : d = x := G.decoder.symm
  have step : ∀ (σ : Sensor) (m n : State), m.cfg.active = n.cfg.active → m.adec.cycle = n.adec.cycle → m.cap = n.cap → m.ports = n.ports →
      (n.kfe.chain.get σ).knock = (x.kfe.chain.get σ).knock →
      (told σ m).cap = (n.abandonSensor t σ true).cap ∧ (told σ m).ports = (n.abandonSensor t σ true).ports ∧
        CapFrame m (told σ m) := by
    intro σ m n h1 h2 h3 h4 h5
    show State.cap (if (d.kfe.chain.get σ).knock.isSome then m.noticeAbandon t σ true else m) = _ ∧
      State.ports (if (d.kfe.chain.get σ).knock.isSome then m.noticeAbandon t σ true else m) = _ ∧
      CapFrame m (if (d.kfe.chain.get σ).knock.isSome then m.noticeAbandon t σ true else m)
    unfold State.abandonSensor
    rw [hd, h5]
    split
    · have := State.noticeAbandon_on (n.modChain σ fun c => { c with knock := none, guard := none }) m h1 h2 h3 h4 t σ true
      exact ⟨this.1, this.2, m.noticeAbandon_frame t σ true⟩
    · exact ⟨h3, h4, .refl _⟩
  have f0 : u.cfg.active = x.cfg.active ∧ u.adec.cycle = x.adec.cycle := by
    show v.cfg.active = _ ∧ v.adec.cycle = _
    rw [G.after.cfg, G.cycle, G.stage.cycle]
    exact ⟨rfl, rfl⟩
  have A0 := step .ks0 { u with cap := d.cap, ports := d.ports } x f0.1 f0.2 (by rw [hd]) (by rw [hd]) rfl
  generalize told .ks0 { u with cap := d.cap, ports := d.ports } = m at A0
  have F0 := x.abandonSensor_frame t .ks0 true
  have A1 := step .ks1 m (x.abandonSensor t .ks0 true) (by rw [A0.2.2.cfg, F0.1.cfg]; exact f0.1)
    (by rw [A0.2.2.adec, F0.1.adec]; exact f0.2) A0.1 A0.2.1 (by rw [F0.2.2.2.2]; rfl)
  generalize told .ks1 m = n at A1
  have hn : n = y := by
    have := (A0.2.2.trans A1.2.2).self n.cap n.ports
    rw [hy]
    show n = { v with cap := y.cap, ports := y.ports }
    rw [hab.1, hab.2, show (x.abandonWindows t true).cap = _ from A1.1.symm, show (x.abandonWindows t true).ports = _ from A1.2.1.symm]
    exact this
  dsimp only
  rw [hn, ← State.capRunList_taken]
  exact ⟨hcap, by show configPorts v.ports _ _ _ _ _ = _; rw [hports]⟩

/-- CAP and the records at a GEOMETRY apply (R173, R162). -/
theorem ApplyStages.geometry {t : Stamp} {cls : CommitClass} {s x v : State} (G : ApplyStages t cls s x v) (p : Port) :
    let u : State := { v with ports := configPorts v.ports t s.adec.cycle (s.cfg.generation + 1) p cls }
    let d := s.decoderApplied t cls
    cls = .geometry → (s.cap.requests.map (·.handle)).Nodup →
    let w := State.runListTaken { u with cap := d.cap, ports := d.ports } t
    ∃ z : State, GrantMade t { w with cap := { w.cap with requests := w.cap.requests.map Request.restarted } } z ∧
      u.cap = z.cap ∧ u.ports = configPorts z.ports t s.adec.cycle (s.cfg.generation + 1) p cls := by
  intro u d hc hd
  obtain ⟨y, -, ycfg, ysync, -, yid, hcap, hports, hy, -⟩ := G.after.capNew (by rw [hc]; simp)
  have yid := yid (.inl hc)
  rw [if_neg (by rw [hc]; simp)] at hcap hports
  have hns : x.adec.sync ≠ .fullSync := by
    by_cases h : StallPassed t s
    · rw [G.halted h]; simp
    · by_cases hh : s.adec.sync = .halted
      · rw [G.still hc hh]; show s.adec.sync ≠ _; rw [hh]; simp
      · rw [G.seek hc hh h]; simp [Adec.enterSeek]
  have hw : ({ u with cap := d.cap, ports := d.ports } : State) = y := by
    show ({ v with cap := (s.decoderApplied t cls).cap, ports := (s.decoderApplied t cls).ports } : State) = y
    rw [← G.decoder, ← yid.1, ← yid.2]
    exact hy.symm
  have hk := State.capRunList_keeps y t
  have hf := State.capRunList_frame y t
  dsimp only
  rw [hw, ← State.capRunList_taken]
  refine ⟨(y.capRunList t).capGeometry t, ?_, hcap, by show configPorts v.ports _ _ _ _ _ = _; rw [hports]⟩
  rw [State.capGeometry_restarted _ (by rw [hf.adec, ysync]; exact hns)]
  refine State.grant_made ?_ t
  show (((y.capRunList t).cap.requests.map Request.restarted).map (·.handle)).Nodup
  rw [Request.restarted_handles, hk.requests, yid.1, G.stage.keep.requests]
  exact hd

/-- What an apply does to every block (R182). -/
theorem State.applyCommit_applied (s : State) (t) (k : PendingCommit) : Applied t k.cls k.port s (s.applyCommit t k) := by
  obtain ⟨tm, cls, p⟩ := k
  let s1 := s.setCfg s.cfg.apply
  show Applied t cls p s _
  have G : ApplyStages t cls s (s1.applyAdec t cls s.cfg.active) (s1.applyEffects t cls s.cfg.active) := applyStages s t cls
  have hu : s.applyCommit t ⟨tm, cls, p⟩ =
      (let v := s1.applyEffects t cls s.cfg.active
       { v with ports := configPorts v.ports t v.adec.cycle v.cfg.generation p cls }) := by
    show (State.emit (s1.applyEffects t cls s.cfg.active) _).alertAll alertConfig = _
    unfold State.alertAll State.emit configPorts
    simp only [State.setPorts]
    rw [ports_config]
  rw [hu]
  generalize s1.applyAdec t cls s.cfg.active = x at G
  generalize s1.applyEffects t cls s.cfg.active = v at G
  dsimp only
  rw [G.cycle, G.generation]
  have hreset : ∀ r, r < 12 → x.kfe.rowGain r = s.kfe.rowGain r := fun r _ => by unfold Kfe.rowGain; rw [G.stage.weak.rows]
  refine ⟨?_, ?_, ?_, ?_, ?_, ?_, ?_, ?_, ?_, ?_, ?_, ?_, ?_, ?_, ?_, ?_, ?_, ?_, ?_, ?_,
    G.cap, G.runList, G.rearmed, G.forced p, G.calibration p, G.layout p, G.geometry p, fun q => ?_, fun h1 h2 => ?_, fun h1 hc hh hn => ?_⟩
  · exact G.cfg
  · have f := G.after.frame; have g := G.stage.frame
    exact ⟨f.running.trans g.running, f.startUp.trans g.startUp, f.timebase.trans g.timebase, f.pending.trans g.pending⟩
  · intro h1 h2
    have := G.plain h1 h2
    show v.adec = { s.adec with nextAngle := v.adec.nextAngle }
    rw [G.after.adec, this]; split <;> rfl
  · intro h1 h2
    show v.adec = _
    rw [G.after.adec, G.still h1 h2, if_neg (by rw [h1]; simp)]
    show restartedAdec s = _; unfold restartedAdec; rw [polarityFor_eq]
  · intro h1 h2 h3
    show v.adec = _
    rw [G.after.adec, G.seek h1 h2 h3, if_neg (by rw [h1]; simp)]
    unfold restartedAdec; rw [polarityFor_eq]; rfl
  · intro h
    have hv : v.adec = x.adec := by rw [G.after.adec, if_neg (by rw [G.halted h]; simp)]
    show v.adec.sync = _ ∧ v.adec.period = _ ∧ v.adec.prevPeriod = _ ∧ v.adec.toothPeriod = _ ∧ v.adec.trev = _ ∧
        v.adec.toothIndex = _ ∧ v.adec.lastEdge = _ ∧ v.adec.verifyFails = _ ∧ v.adec.camFaults = _ ∧ v.adec.cycle = _
    rw [hv]
    exact G.stalled h
  · intro h1 h2
    subst h1
    have := G.plain (by simp) h2
    show v.smap = _ ∧ v.igsu = _ ∧ v.adec.nextAngle = _
    rw [G.after.smap, G.after.igsu, G.after.adec, if_pos rfl, this]; exact ⟨rfl, rfl, rfl⟩
  · intro h1 h2
    subst h1
    have := G.plain (by simp) h2
    show v.igsu = _ ∧ v.smap.marks = _ ∧ (_ → v.smap.cursor = _ ∧ v.adec.nextAngle = _) ∧
        (_ → v.smap.cursor = _ ∧ v.adec.nextAngle = _)
    have hsm := G.after.smap
    have hna := G.after.adec
    rw [if_neg (by simp), if_neg (by simp), G.act, this] at hsm
    rw [G.act, this] at hna
    refine ⟨by rw [G.after.igsu]; rfl, ?_, fun hf => ?_, fun hf => ?_⟩
    · rw [hsm]; split <;> rfl
    · rw [if_pos (by exact hf)] at hsm
      rw [if_pos ⟨rfl, by exact hf⟩] at hna
      rw [hsm, hna]; exact ⟨rfl, rfl⟩
    · rw [if_neg (by exact hf)] at hsm
      rw [if_neg (by exact fun k => hf k.2)] at hna
      rw [hsm, hna]; exact ⟨rfl, rfl⟩
  · intro h1; subst h1
    show v.smap.marks = _; rw [G.after.smap, if_neg (by simp), if_pos rfl]
  · intro hf hc
    have L := G.lost hf hc
    have hns : x.adec.sync ≠ .fullSync := by
      by_cases h : StallPassed t s
      · rw [G.halted h]; simp
      · rw [G.seek (by tauto) (by rw [hf]; simp) h]; simp [Adec.enterSeek]
    show v.smap = _ ∧ v.igsu = _ ∧ v.mfa.segments = _ ∧ v.mfa.history = _ ∧ v.mfa.last = _ ∧ v.cyt.pendingList = _ ∧
        ∀ σ, (v.kfe.chain.get σ).knock = _ ∧ (v.kfe.chain.get σ).guard = _
    refine ⟨?_, ?_, ?_⟩
    · rw [G.after.smap, L.1]
      split
      · rfl
      · split
        · rfl
        · rfl
    · rw [G.after.igsu, L.2.1]; split <;> rfl
    · have hch : ∀ σ, (v.kfe.chain.get σ).knock = none ∧ (v.kfe.chain.get σ).guard = none := by
        intro σ; rw [G.after.chain]; split
        · rw [PerSensor.get_map]; exact ⟨rfl, rfl⟩
        · exact L.2.2.2.2.2.2 σ
      refine ⟨?_, ?_, ?_, ?_, hch⟩
      all_goals
        by_cases hcl : cls = .calibration
        · by_cases ho : s.cfg.active.segOffset = x.cfg.active.segOffset
          · have := G.after.mfaSame hcl ho
            have k := (State.applyKna_frame x cls s.cfg.active).2.2.2.2.2.2.2.2.2.2
            first
            | (rw [this.1]; first | exact L.2.2.1 | exact L.2.2.2.1 | exact L.2.2.2.2.1)
            | (rw [this.2.1, k]; exact L.2.2.2.2.2.1)
          · have := G.after.mfaMoved hcl ho (by rw [L.2.2.2.2.2.1]; exact List.nodup_nil)
            rw [L.2.2.2.2.2.1] at this
            first
            | (rw [this.1] <;> first | rfl | exact L.2.2.2.1)
            | (rw [this.2] <;> rfl)
        · have := G.after.mfaNew hcl
          first
          | (rw [this.2] <;> rfl)
          | (rw [this.1] <;> rfl)
  · show v.ops = _
    rw [G.after.ops, G.act, G.stage.frame.ops]; rfl
  · intro h1 h2 h3
    have := G.plain (by rw [h1]; simp) h2
    show v.mfa = _
    rw [(G.after.mfaSame h1 (by rw [G.act]; exact h3)).1, this]; rfl
  · intro h1 h2 h3 h4
    have := G.plain (by rw [h1]; simp) h2
    have M := G.after.mfaMoved h1 (by rw [G.act]; exact h3) (by rw [this]; exact h4)
    show v.mfa.segments = _ ∧ v.mfa.history = _ ∧ v.mfa.counts = _ ∧ v.mfa.blockCycles = _ ∧ v.mfa.last = _ ∧ v.cyt.pendingList =
        _
    rw [M.1, M.2, this]
    exact ⟨rfl, rfl, rfl, rfl, rfl, rfl⟩
  · intro h1 h2
    have M := (G.after.mfaNew h1).1
    have W : x.mfa.blockCycles = s.mfa.blockCycles ∧ x.mfa.counts = s.mfa.counts := by
      by_cases hg : cls = .geometry
      · by_cases hh : s.adec.sync = .halted
        · rw [G.still hg hh]; exact ⟨rfl, rfl⟩
        · rw [G.sought hg hh h2]; exact (State.changeSync_kept (s.setCfg s.cfg.apply) t _ _).2.2 (by simp [Adec.enterSeek])
      · rw [G.plain hg h2]; exact ⟨rfl, rfl⟩
    show v.mfa.segments = _ ∧ v.mfa.history = _ ∧ v.mfa.last = _ ∧ v.mfa.blockCycles = _ ∧ ∀ c, v.mfa.counts.get c = _
    rw [M, G.act]
    refine ⟨rfl, rfl, rfl, W.1, fun c => ?_⟩
    show (PerCyl.mapWith _ x.mfa.counts).get c = _
    rw [PerCyl.get_mapWith, W.2]; rfl
  · intro r hr O N
    show v.kfe.rowGain r = _
    have : v.kfe.rowGain r = if resetsGain cls s.cfg.active x.cfg.active r then ⟨(x.cfg.active.row r).initGain,
        0⟩ else x.kfe.rowGain r := by
      unfold Kfe.rowGain; rw [G.after.rows]; exact vget_vmapIdx _ _ _ _ hr
    rw [this, G.act, hreset r hr]
    by_cases h : resetsGain cls s.cfg.active s.cfg.staged r = true
    · rw [if_pos h, if_pos ((resetsGain_iff ..).mp h)]
    · rw [if_neg h, if_neg (fun k => h ((resetsGain_iff ..).mpr k))]
  · intro σ
    show (v.kfe.chain.get σ).stage = _ ∧ (v.kfe.chain.get σ).filter = _ ∧
        (_ → (v.kfe.chain.get σ).knock = _ ∧ (v.kfe.chain.get σ).guard = _) ∧ (_ → _ → v.kfe.chain.get σ = _)
    rw [G.after.chain]
    by_cases hl : cls = .layout
    · rw [if_pos hl, PerSensor.get_map]
      exact ⟨(G.stage.weak.chain σ).1, (G.stage.weak.chain σ).2, fun _ => ⟨rfl, rfl⟩, fun h => by rw [hl] at h; cases h⟩
    · rw [if_neg hl]
      exact ⟨(G.stage.weak.chain σ).1, (G.stage.weak.chain σ).2, fun h => absurd h hl, fun h1 h2 => by rw [G.plain (by rw [h1]; simp) h2]; rfl⟩
  · intro c O N X leaves
    show v.kna.cyl.get c = _
    rw [G.after.kna, State.applyKna_cyl, G.act, G.stage.frame.kna]; rfl
  · intro σ O N X
    show v.kna.gref.get σ = _
    rw [G.after.kna, State.applyKna_gref, G.act, G.stage.frame.kna]; rfl
  · show (_ → v.cyt.pendingList = _) ∧ (_ → _ → _ → v.cyt.pendingList = _)
    refine ⟨fun h => ?_, fun h1 h2 h3 => ?_⟩
    · rw [(G.after.mfaNew h).2]; rfl
    · rw [(G.after.mfaSame h1 (by rw [G.act]; exact h3)).2.1, (State.applyKna_frame x cls s.cfg.active).2.2.2.2.2.2.2.2.2.2,
          G.plain (by rw [h1]; simp) h2]; rfl
  · intro h c O N X leaves
    show v.cyt.entry.get c = _
    have ek := State.applyKna_entry x cls s.cfg.active c
    rw [G.act, G.stage.frame.kna, G.stage.weak.entry] at ek
    by_cases hc : cls = .calibration
    · have h : s.cfg.active.segOffset = s.cfg.staged.segOffset := by tauto
      rw [(G.after.mfaSame hc (by rw [G.act]; exact h)).2.1, ek]
      have hl : ¬ leaves := fun l => l.1 hc
      rw [if_neg hl, if_neg hl, if_pos hc]
      show (if _ then _ else _) = _
      split
      · next q => rw [if_pos (by exact q)]
      · next q => rw [if_neg (by exact q)]
    · rw [(G.after.mfaNew hc).2]
      unfold Cyt.newRunList
      dsimp only
      rw [PerCyl.get_mapWith, ek, G.act, if_neg hc]
      by_cases ho : s.cfg.active.hasCyl c = true <;> by_cases hn : s.cfg.staged.hasCyl c = true
      · have hl : ¬ leaves := by intro l; have := l.2.2; rw [show N.hasCyl c = true from hn] at this; cases this
        rw [if_neg hl, if_neg hl]
        simp only [ho, hn, Bool.not_true, Bool.and_false, Bool.false_eq_true, ↓reduceIte]
        split
        · next q => rw [if_pos (by exact q), show N.hasCyl c = true from hn]
        · next q => rw [if_neg (by exact q), show N.hasCyl c = true from hn]
      · have hl : leaves := ⟨hc, ho, by simpa using hn⟩
        rw [if_pos hl, if_pos hl]
        have hn' : s.cfg.staged.hasCyl c = false := by simpa using hn
        simp only [ho, hn', Bool.not_false, Bool.and_true, ↓reduceIte, Entry.rewrite]
        split <;> simp [N, X, hn']
      all_goals
        have ho' : s.cfg.active.hasCyl c = false := by simpa using ho
        have hl : ¬ leaves := by intro l; have := l.2.1; rw [show O.hasCyl c = false from ho'] at this; cases this
        rw [if_neg hl, if_neg hl]
        simp only [ho', Bool.false_and, Bool.false_eq_true, ↓reduceIte]
        split
        · next q => rw [if_pos (by exact q)]
        · next q => rw [if_neg (by exact q)]
  · unfold configPorts
    rw [PerPort.get_map]
    simp
  · rw [G.quiet h1 h2]; rfl
  · rw [G.sync h1 hc hh hn]; rfl

end Sys2Proof.Machine
end

