-- ==== Sys2Proof/Tests/Slice0.lean ====
section
/-! SUPPORT. Tests. `test_` theorems check the model against figures and frames that the reference works out itself, each about one
decision or one command. `witness_` theorems show, for each statement of Certificates/Slice0/Obligations.lean that has hypotheses,
concrete values that meet them together, clause by clause, at the ends of the clauses' ranges. -/

namespace Sys2Proof.Tests

open Sys2Proof Sys2Proof.Machine

/-! ### Small states -/

/-- The part just out of reset, its start-up period over. -/
def on : State := { State.reset with running := true }

/-- The part with a decoder made from the reset one. -/
def withAdec (f : Adec → Adec) : State := { on with adec := f Adec.reset }

/-- A selection is in progress on port `p`. -/
def serving (p : Port) (s : State) : State := { s with ports := s.ports.set p { s.ports.get p with selection := .serving } }

/-- The part with a port A ready to take a request. -/
def readyA : State := serving .a on

/-- The state that an outcome answers. -/
def after : Host.Outcome State Fault Refusal → State
  | .next s => s
  | _ => State.reset

/-- The response in a port's buffer after an outcome. -/
def answerOf (p : Port) (o : Host.Outcome State Fault Refusal) : Option Response := ((after o).ports.get p).buffer

theorem ready_readyA : readyA.ready .a := ⟨by decide, by decide⟩

/-! ### Well-formed commands -/

theorem test_wellFormed_payload_too_long : wellFormed (.noOp 0 .a (List.replicate 251 0)) = false := by decide +kernel
theorem test_wellFormed_unknown_but_known : wellFormed (.unknownCommand 0 .a 0x5D []) = false := by decide
theorem test_wellFormed_unknown_payload : wellFormed (.unknownCommand 0 .a 0x05 (List.replicate 251 0)) = false := by decide +kernel
theorem test_wellFormed_bad_frame_that_is_good : wellFormed (.badFrame 0 .a [0x00, 0x00, 0x00]) = false := by decide
theorem test_wellFormed_good : wellFormed (.badFrame 0 .a [0x00, 0x00]) = true ∧ wellFormed (.unknownCommand 0 .a 0x05 []) = true ∧
    wellFormed (.discard 0 .a (List.replicate 250 0)) = true ∧ wellFormed .rstnLow = true := by decide +kernel

/-! ### Request frames, written out by hand from sections 11.1 and 11.5 -/

theorem test_frame_noOp : requestCommand 7 .a [0x00, 0x00, 0x00] = .noOp 7 .a [] := by decide
theorem test_frame_status : requestCommand 7 .b [0x01, 0x00, 0xFF] = .status 7 .b [] := by decide
theorem test_frame_subscribe :
    requestCommand 7 .c [0x48, 0x04, 0x03, 0xFF, 0x01, 0x10, 0xA1] = .subscribe 7 .c [0x03, 0xFF, 0x01, 0x10] := by decide
theorem test_frame_declareState :
    requestCommand 7 .a [0x20, 0x03, 0x01, 0x02, 0x08, 0xD2] = .declareState 7 .a [0x01, 0x02, 0x08] := by decide
theorem test_frame_stageRows :
    requestCommand 7 .a [0x18, 0x05, 0x03, 0xF0, 0x03, 0x0B, 0xB8, 0x2A] = .stageRows 7 .a [0x03, 0xF0, 0x03, 0x0B, 0xB8] := by decide
theorem test_frame_captureRequest :
    requestCommand 7 .c [0x50, 0x05, 0x01, 0x00, 0x04, 0x01, 0x01, 0xA4] = .captureRequest 7 .c [0x01, 0x00, 0x04, 0x01, 0x01] := by decide
theorem test_frame_commit_then_idle_byte : requestCommand 7 .b [0x5D, 0x01, 0x01, 0xA1, 0x00] = .commit 7 .b [0x01] := by decide
theorem test_frame_retardReset : requestCommand 7 .b [0x39, 0x01, 0x09, 0xBD] = .retardReset 7 .b [0x09] := by decide
theorem test_frame_readKnock : requestCommand 7 .b [0x30, 0x00, 0xD0] = .readKnockFront 7 .b [] ∧
    requestCommand 7 .b [0x40, 0x01, 0x04, 0xBB] = .readCylinder 7 .b [0x04] ∧
    requestCommand 7 .b [0x28, 0x00, 0xD8] = .readMisfire 7 .b [] := by decide
theorem test_frame_bad : requestCommand 7 .a [0x00, 0x00, 0x01] = .badFrame 7 .a [0x00, 0x00, 0x01] ∧
    requestCommand 7 .a [0x5D, 0x01, 0x01] = .badFrame 7 .a [0x5D, 0x01, 0x01] ∧
    requestCommand 7 .a [0x00, 0xFB] = .badFrame 7 .a [0x00, 0xFB] := by decide
theorem test_frame_unknown : requestCommand 7 .a [0x05, 0x00, 0xFB] = .unknownCommand 7 .a 0x05 [] := by decide
theorem test_noRowGivesBits (n w : Nat) : decodeTableWord n w = none ∧ State.reset.withFetchWord n w = State.reset := ⟨rfl, rfl⟩

/-! ### Worked figures of the reference -/

/-- Chapter 1, worked figure 1: reference offset 5,280, tooth 20 at 1,220,000, the cam edge 500 ticks later. -/
def figureOne : State :=
  { withAdec fun a => { a with sync := .crankSync, toothIndex := 20, lastEdge := some 1220000, period := 2000, toothPeriod := 2000,
                               trev := 120000 } with
    cfg := { Cfg.reset with active := defaultImage.setItem 4 5280 } }

theorem test_figure_speed : figureOne.adec.rpm = 1000 ∧ figureOne.adec.band = 1 ∧ rpmOf 121000 = 991 := by decide
theorem test_figure_camPhase : figureOne.adec.revAngle figureOne.cfg.active 1220500 = 1464 ∧
    (after (exec (.camEdge 1220500 .rising) figureOne)).adec.sync = .fullSync ∧
    (after (exec (.camEdge 1220500 .rising) figureOne)).adec.toothAngle = 1440 ∧
    (after (exec (.camEdge 1220500 .rising) figureOne)).smap.cursor = some 0 := by decide

/-- Chapter 1, worked figure 2: tooth 57 at 1,294,000 at cycle angle 4,992. -/
def lastTooth : Adec := { figureOne.adec with sync := .fullSync, toothIndex := 57, lastEdge := some 1294000, toothAngle := 4992 }

theorem test_figure_interpolation :
    [3000, 5500, 5979, 5980, 6000, 7000].map (fun d => lastTooth.cycleAngle figureOne.cfg.active (1294000 + d)) =
      [5136, 5256, 5278, 5279, 5279, 5279] := by decide

/-- Chapter 2, worked figure 1: the default layout passes every check and has its spark opening of slot 0 in the cycle before. -/
theorem test_figure_layout : failedCheck defaultImage = none ∧
    (defaultImage.eventsBetween 10080 10080).map (fun e => (e.kind, e.slot, e.instCycle 6)) = [(.sparkOpen, 0, 7)] ∧
    (defaultImage.eventsBetween 8800 8880).map (fun e => (e.kind, e.slot)) = [(.knockOpen, 3)] := by decide

/-- Chapter 3, worked figure 1: the four spark parts. -/
theorem test_figure_spark : relativeAngle 11200 0 = -320 ∧ relativeAngle 2640 2880 = -240 ∧
    sparkPartOf true false none = ⟨none, some .spark⟩ ∧ sparkPartOf false true (some (-160)) = ⟨none, some .fuel⟩ := by decide

/-- Chapter 3, worked figure 3: the tail. -/
theorem test_figure_tail :
    let img := defaultImage.setItem 15 3
    let next : Ops × Bool → Ops := fun x => Ops.boundary { x.1 with antiLag := x.2 } img
    let b1 := next (Ops.reset, true)
    let b2 := next (b1, false)
    let b3 := next (b2, false)
    let b7 := next (b3, false)
    (b1.set, b1.tail, b2.tail, b3.set, b3.tail, b7.set, b7.tail) = (.setB, 0, 1, .setB, 2, .setA, 0) := by decide

/-- Chapter 4, worked figures 1 and 2: a misfire at 4,000 rpm, broken tarmac, and washboard. -/
def figureMisfire (tPrev tk tNext : Nat) (history : List Nat) : MisfireInputs :=
  { rpm := 4000, band := 6, snap := ⟨.setA, 2, false, false⟩, cut := none, cutPrev := false, cutNext := false,
    tPrev := some tPrev, tk := some tk, tNext := some tNext, history := history }

theorem test_figure_misfire :
    judgeMisfire defaultImage (figureMisfire 15000 15300 15060 [300, 250, 280, 900, 260, 310, 270, 290]) =
      ⟨.misfire, none, some ⟨1156, 740, 280⟩⟩ := by decide +kernel
theorem test_figure_tarmac :
    judgeMisfire defaultImage (figureMisfire 15000 15450 15020 [2800, 3100, 2900, 3300, 2700, 3000, 3200, 5000]) =
      ⟨.noMisfire, none, some ⟨1866, 2100, 3000⟩⟩ := by decide +kernel
theorem test_figure_washboard :
    judgeMisfire defaultImage (figureMisfire 14600 15400 14800 [3900, 4500, 5200, 3800, 6100, 4400, 4700, 5000]) =
      ⟨.rough, none, some ⟨2978, 2850, 4500⟩⟩ := by decide
theorem test_figure_cutNeighbour :
    judgeMisfire defaultImage { figureMisfire 15600 15400 15050 [1, 2, 3, 4, 5, 6, 7] with cutPrev := true } =
      ⟨.misfire, none, some ⟨1489, 600, 0⟩⟩ := by decide +kernel

/-- Chapter 5, worked figures 1 and 2: one window, and the gain steps. -/
theorem test_figure_window :
    (KnockIntegrator.result ⟨2, 0, 2, .c4, .g8, 250, 625000, false⟩).inorm = some 20000 ∧
    (GuardIntegrator.result ⟨2, 0, 2, .c4, .g8, 83, 46480, false⟩).gn = some 4480 := by decide
theorem test_figure_ranging :
    autoRangeStep ⟨.g16, 0⟩ ⟨250, false, true, some 31000, some 62000, .g16⟩ = (⟨.g8, 0⟩, some .clip) ∧
    autoRangeStep ⟨.g4, 14⟩ ⟨250, false, false, some 700, some 5600, .g4⟩ = (⟨.g4, 15⟩, none) ∧
    autoRangeStep ⟨.g4, 15⟩ ⟨3, true, false, none, none, .g4⟩ = (⟨.g4, 15⟩, none) ∧
    autoRangeStep ⟨.g4, 15⟩ ⟨250, false, false, some 960, some 7680, .g4⟩ = (⟨.g8, 0⟩, some .low) := by decide

/-- Chapter 6, worked figures 1 to 3: clean, knock, double step, and the guard test. -/
def figureKna (ref : Nat) : Kna := { Kna.reset with cyl := Kna.reset.cyl.set .c4 ⟨ref, 0, 0⟩, gref := ⟨4096, 4000⟩ }

def figureKnock (inorm : Nat) (guard : GuardPlace) : KnockInputs :=
  { overspeed := false, band := 6, cut := none, set := .setA, cyl := .c4, sensor := .ks1,
    knock := ⟨250, false, false, some (inorm / 4), some inorm, .g8⟩, guard := guard }

theorem test_figure_clean :
    let d := judgeKnock defaultImage (figureKna 16000) (figureKnock 20000 (.result ⟨.valid, some 4480, 83, .g8⟩))
    (d.judged.verdict, d.judged.k, d.judged.q, (d.kna.cyl.get .c4).ref, (d.kna.cyl.get .c4).recovery, d.kna.gref.s1) =
      (.clean, some 320, some 286, 16250, 1, 4030) := by decide
theorem test_figure_knock :
    let d := judgeKnock defaultImage (figureKna 16250) (figureKnock 56000 .notConfigured)
    d.record = some (.knock 882 56000 6 6 .setA) ∧ (d.kna.cyl.get .c4).ref = 16250 := by decide +kernel
theorem test_figure_doubleStep :
    (judgeKnock defaultImage (figureKna 16250) (figureKnock 84000 .notConfigured)).record =
      some (.knock 1323 84000 12 12 .setA) := by decide +kernel
theorem test_figure_stone :
    let kna := { figureKna 16250 with gref := ⟨4096, 4030⟩ }
    let d := judgeKnock defaultImage kna (figureKnock 90000 (.result ⟨.valid, some 20000, 83, .g8⟩))
    d.judged.verdict = .noise ∧ d.record = some (.noise .ks1 1270 20000) ∧ d.kna = kna := by decide

/-- Chapter 9, worked figure 2: the answer to port C's request, the first of the list. -/
theorem test_figure_captureRequest :
    answerOf .c (exec (.captureRequest 5 .c [1, 0, 4, 1, 1]) (serving .c on)) = some ⟨.ok, [1, 4, 2]⟩ := by decide

/-- Chapter 10, worked figure 1: 24 entries, and an offset out of range. -/
theorem test_figure_staging :
    answerOf .a (exec (.stageTable 5 .a [0, 0xFC, 0, 15, 3, 0x84]) readyA) = some ⟨.ok, [24]⟩ ∧
    answerOf .a (exec (.stageGlobal 5 .a [16, 0, 0, 7, 0xD0]) readyA) = some ⟨.badValue, []⟩ := by decide

/-- R190: data out carries NOT_READY within the start-up period, and NONE for an empty buffer. -/
theorem test_notReady_and_none :
    ((after (exec (.selectionStart 5 .a) { on with startUp := true })).ports.a.dataOut.map Response.bytes) = some [6, 0, 250] ∧
    ((after (exec (.selectionStart 5 .a) on)).ports.a.dataOut.map Response.bytes) = some [11, 0, 245] := by decide

/-! ### Witnesses: the step and the reset line -/

theorem witness_StepRunsTheFrontCommand :
    (State.reset.pending = [] ∧ State.reset.running = false) ∧ (on.pending = [] ∧ on.running = true) := by decide

theorem witness_ResetLine : on.running = true ∧ State.reset.running = false ∧ 4000 ≤ (4000 : Stamp).toNat ∧
    (3999 : Stamp).toNat < 4000 := by decide

theorem witness_HeldInReset : State.reset.running = false ∧ Instr.noOp 0 .a [] ≠ .rstnLow ∧ Instr.noOp 0 .a [] ≠ .powerOn ∧
    ∀ level, Instr.noOp 0 .a [] ≠ .rstnRise level := by decide

/-! ### Witnesses: the angle decoder -/

theorem witness_UnusedEdges : on.running = true ∧ Edge.rising ≠ on.toothEdge ∧ ¬ CamCounts on.cfg.active .falling ∧
    on.adec.sync = .halted ∧ (withAdec fun a => { a with sync := .seek }).adec.sync = .seek ∧
    (withAdec fun a => { a with sync := .verify }).adec.sync = .verify := by
  unfold CamCounts
  decide

theorem witness_ToothEdgeInHalted : on.running = true ∧ on.adec.sync = .halted := by decide

/-- In sync, the last accepted edge at 1,000, the last tooth period 2,000. -/
def crankState (sync : SyncState) : State :=
  withAdec fun a => { a with sync := sync, lastEdge := some 1000, period := 2000, toothPeriod := 2000, toothIndex := 56 }

theorem witness_NoiseFilter : (crankState .crankSync).running = true ∧ (crankState .crankSync).adec.sync = .crankSync ∧
    (crankState .fullSync).adec.sync = .fullSync ∧ (crankState .crankSync).adec.lastEdge = some 1000 ∧
    4 * ((1499 : Stamp) - 1000).toNat < (crankState .crankSync).adec.toothPeriod := by decide

/-- SEEK with `count` edges, the last at 1,000, and a period of 100 before it. -/
def seekState (count : Nat) : State :=
  withAdec fun a => { a with sync := .seek, lastEdge := some 1000, period := 100, seekCount := count }

theorem witness_ToothEdgeInSeek : (seekState 5).running = true ∧ (seekState 5).adec.sync = .seek ∧
    (seekState 5).adec.lastEdge = some 1000 ∧
    GapPeriod (seekState 5).cfg.active.missing (seekState 5).adec.period ((1250 : Stamp) - 1000).toNat ∧
    ¬ GapPeriod (seekState 178).cfg.active.missing (seekState 178).adec.period ((1249 : Stamp) - 1000).toNat ∧
    (seekState 178).adec.seekCount + 1 < 3 * (seekState 178).cfg.active.nPos ∧
    (withAdec fun a => { a with sync := .seek }).adec.lastEdge = none := by
  unfold GapPeriod
  decide

/-- VERIFY with `count` periods since the gap end at 0, the last edge at 1,000 and a period of 100 before it. -/
def verifyState (count : Nat) : State :=
  withAdec fun a => { a with sync := .verify, lastEdge := some 1000, lastGapEnd := some 0, period := 100, verifyCount := count }

/-- A TOOTH request of port A, handle 1, ACTIVE. -/
def toothRequest : Request :=
  { handle := 1, port := .a, kind := .tooth, target := none, count := 1, named := 1, latched := 1, mode := .once, state := .active }

theorem witness_VerifyReachesCrankSync :
    let filling : State := { verifyState 57 with cap := { Cap.reset with unit := .filling, active := some 1, requests := [toothRequest] } }
    (verifyState 57).running = true ∧ (verifyState 57).adec.sync = .verify ∧ (verifyState 57).adec.lastEdge = some 1000 ∧
    (verifyState 57).adec.lastGapEnd = some 0 ∧
    GapPeriod (verifyState 57).cfg.active.missing (verifyState 57).adec.period ((1250 : Stamp) - 1000).toNat ∧
    (verifyState 57).adec.verifyCount + 1 + (verifyState 57).cfg.active.missing = (verifyState 57).cfg.active.nPos ∧
    (verifyState 57).cap.unit ≠ .filling ∧
    (filling.cap.unit = .filling ∧ filling.cap.activeRequest = some toothRequest ∧ toothRequest.kind = .tooth ∧
      filling.cap.started = false) := by
  unfold GapPeriod
  decide

theorem witness_VerifyFailures :
    let m := defaultImage.missing
    let fails : Nat → Nat := fun n => min 255 (n + 1)
    (verifyState 56).running = true ∧ (verifyState 56).adec.lastEdge = some 1000 ∧ (verifyState 56).adec.sync = .verify ∧
    (seekState 179).adec.sync = .seek ∧
    GapPeriod m 100 ((1250 : Stamp) - 1000).toNat ∧ ¬ GapPeriod m 100 ((1249 : Stamp) - 1000).toNat ∧
    (verifyState 56).adec.period = 100 ∧ (seekState 179).adec.period = 100 ∧
    (verifyState 56).adec.verifyCount + 1 + m ≠ defaultImage.nPos ∧ (verifyState 57).adec.verifyCount + 1 + m = defaultImage.nPos ∧
    (verifyState 56).adec.verifyCount + 1 + m < defaultImage.nPos ∧ 3 * defaultImage.nPos ≤ (seekState 179).adec.seekCount + 1 ∧
    (¬ (defaultImage.polMode = 2 ∧ 4 ≤ fails 2)) ∧ (defaultImage.polMode = 2 ∧ 4 ≤ fails 3) := by
  unfold GapPeriod
  decide

/-- In sync at tooth index `j`, the last accepted edge at 1,000 and a period of 100 before it. -/
def toothState (sync : SyncState) (j : Nat) : State :=
  withAdec fun a => { a with sync := sync, lastEdge := some 1000, period := 100, toothPeriod := 996, toothIndex := j }

theorem witness_CrankSyncLost :
    let m := defaultImage.missing
    (toothState .crankSync 56).running = true ∧ (toothState .crankSync 56).adec.sync = .crankSync ∧
    (toothState .fullSync 57).adec.sync = .fullSync ∧ (toothState .crankSync 56).cfg.pendingCommit = none ∧
    (toothState .crankSync 56).adec.lastEdge = some 1000 ∧
    (toothState .crankSync 56).adec.toothPeriod ≤ 4 * ((1249 : Stamp) - 1000).toNat ∧
    (GapPeriod m 100 ((1250 : Stamp) - 1000).toNat ∧ ¬ defaultImage.nPos ≤ 56 + 1 + m) ∧
    (¬ GapPeriod m 100 ((1249 : Stamp) - 1000).toNat ∧ defaultImage.nPos ≤ 57 + 1 + m) ∧
    (toothState .crankSync 56).cap.unit = .free := by
  unfold GapPeriod
  decide

theorem witness_SpeedRule : (Adec.reset).trev = 0 ∧ 0 < figureOne.adec.trev ∧ figureOne.adec.rpm < 9000 ∧
    9000 ≤ ({ Adec.reset with trev := 13333 } : Adec).rpm ∧ 10000 < ({ Adec.reset with trev := 11998 } : Adec).rpm ∧
    ¬ 10000 < ({ Adec.reset with trev := 11999 } : Adec).rpm := by decide

theorem witness_AngleClock :
    let img := figureOne.cfg.active
    lastTooth.lastEdge = some 1294000 ∧ 0 < lastTooth.toothPeriod ∧ 0 < img.toothAngle ∧
    lastTooth.toothIndex + 1 + img.missing = img.nPos ∧ figureOne.adec.toothIndex + 1 + img.missing ≠ img.nPos ∧
    ((1299999 : Stamp) - 1294000).toNat * img.toothAngle / lastTooth.toothPeriod = 287 ∧
    ((1300000 : Stamp) - 1294000).toNat * img.toothAngle / lastTooth.toothPeriod = 288 ∧
    lastTooth.toothAngle + 288 ≤ 11520 ∧ lastTooth.toothAngle + 287 ≤ 11519 ∧
    ((1299999 : Stamp) - 1294000).toNat ≤ ((1300000 : Stamp) - 1294000).toNat := by decide

/-- Worked figure 1 of chapter 1 with another cam window. -/
def camState (lo hi : Nat) : State :=
  { figureOne with cfg := { figureOne.cfg with active := (figureOne.cfg.active.setItem 7 lo).setItem 8 hi } }

theorem witness_CamPhase :
    figureOne.running = true ∧ figureOne.adec.sync = .crankSync ∧ CamCounts figureOne.cfg.active .rising ∧
    figureOne.cfg.active.camLo < 11520 ∧ figureOne.cfg.active.camHi < 11520 ∧ figureOne.cap.requests = [] ∧
    figureOne.adec.revAngle figureOne.cfg.active 1220500 = 1464 ∧ InWindow 1464 1464 1464 ∧
    (¬ InWindow 7224 11519 1464 ∧ InWindow 7224 11519 (1464 + 5760)) ∧
    (¬ InWindow 1465 7223 1464 ∧ ¬ InWindow 1465 7223 (1464 + 5760)) ∧
    ((camState 7224 11519).cfg.active.camLo = 7224 ∧ (camState 1465 7223).cfg.active.camHi = 7223) := by
  unfold CamCounts InWindow
  decide

/-- FULL_SYNC at tooth 57 at 1,294,000, cycle angle 4,992, with cam edge direction `dir` and the cam window from `lo` to `hi`. -/
def camFull (dir lo hi faults : Nat) : State :=
  { on with
    adec := { lastTooth with camFaults := faults }
    cfg := { Cfg.reset with active := ((figureOne.cfg.active.setItem 6 dir).setItem 7 lo).setItem 8 hi } }

theorem witness_CamFaults :
    (camFull 0 0 5759 0).running = true ∧ (camFull 0 0 5759 0).adec.sync = .fullSync ∧
    CamCounts (camFull 0 0 5759 0).cfg.active .rising ∧ CamCounts (camFull 2 0 0 0).cfg.active .rising ∧
    (camFull 0 0 4992 0).cfg.active.camLo < 11520 ∧ (camFull 0 0 4992 0).cfg.active.camHi < 11520 ∧
    InWindow 0 4992 ((camFull 0 0 4992 0).adec.cycleAngle (camFull 0 0 4992 0).cfg.active 1294000) ∧
    ¬ InWindow 0 4991 ((camFull 2 0 4991 0).adec.cycleAngle (camFull 2 0 4991 0).cfg.active 1294000) ∧
    (camFull 2 0 4991 0).cfg.active.camEdge = 2 ∧ (camFull 0 0 4991 1).cfg.active.camEdge ≠ 2 ∧
    (camFull 0 0 4991 1).adec.camFaults < 2 ∧ 2 ≤ (camFull 0 0 4991 2).adec.camFaults ∧
    (camFull 0 0 4991 2).cfg.pendingCommit = none ∧ (camFull 0 0 4991 2).cap.unit = .free := by
  unfold CamCounts InWindow
  decide

theorem witness_StallHalts :
    (crankState .fullSync).running = true ∧ (crankState .fullSync).adec.sync ≠ .halted ∧ (crankState .crankSync).adec.sync ≠ .fullSync ∧
    (crankState .fullSync).cfg.active.stallMs * 2000 ≤ ((200000 : Stamp) - (crankState .fullSync).adec.stallRef).toNat ∧
    ((199999 : Stamp) - (crankState .fullSync).adec.stallRef).toNat < (crankState .fullSync).cfg.active.stallMs * 2000 ∧
    (crankState .fullSync).cfg.pendingCommit = none ∧ (crankState .fullSync).cap.unit = .free ∧ on.adec.sync = .halted := by decide

/-- FULL_SYNC at tooth index `j` and cycle angle `x`, the in-window mark set. -/
def boundaryState (j x : Nat) (o : Ops) : State :=
  { toothState .fullSync j with
    adec := { (toothState .fullSync j).adec with toothAngle := x, inWindow := true }, ops := o }

theorem witness_CycleBoundary :
    let s := boundaryState 4 11424 Ops.reset
    let m := defaultImage.missing
    s.running = true ∧ s.adec.sync = .fullSync ∧ s.cfg.pendingCommit = none ∧ s.adec.lastEdge = some 1000 ∧
    s.adec.toothPeriod ≤ 4 * ((1249 : Stamp) - 1000).toNat ∧ s.adec.inWindow = true ∧
    (¬ GapPeriod m s.adec.period ((1249 : Stamp) - 1000).toNat ∧ ¬ defaultImage.nPos ≤ s.adec.toothIndex + 1 + m ∧
      (11424 + defaultImage.toothAngle) % 11520 < 11424) ∧
    (GapPeriod m 100 ((1250 : Stamp) - 1000).toNat ∧ defaultImage.nPos ≤ 57 + 1 + m ∧
      (11232 + (m + 1) * defaultImage.toothAngle) % 11520 < 11232) ∧
    ({ Ops.reset with antiLag := true } : Ops).antiLag = true ∧ s.ops.antiLag = false ∧ s.ops.set = .setA ∧
    18 + 1 < defaultImage.tailCycles ∧ defaultImage.tailCycles ≤ 19 + 1 ∧
    ({ Ops.reset with set := .setB, tail := 19 } : Ops).set = .setB := by
  unfold GapPeriod
  decide

/-- FULL_SYNC with the angle clock at slot 1's TDC and the cursor on row 0. -/
def slotState (next : Nat) (mark : Bool) : State :=
  { withAdec fun a => { a with sync := .fullSync, lastEdge := some 1000, toothPeriod := 2000, toothAngle := 2880, nextAngle := next } with
    smap := ⟨some 0, vset (.replicate 6 false) 1 mark⟩ }

theorem witness_AngleReached :
    let img := defaultImage
    (slotState 2880 true).running = true ∧ (slotState 2880 true).adec.cycleAngle img 1000 = 2880 ∧ on.adec.sync ≠ .fullSync ∧
    (slotState 2880 true).adec.sync = .fullSync ∧ 2880 < (slotState 2881 true).adec.nextAngle ∧
    img.eventsBetween 2880 2880 = [⟨2880, .slotBoundary, 1⟩] ∧
    ((slotState 2881 true).adec.cycleAngle img 1021 = 2881 ∧ img.eventsBetween 2881 2881 = []) ∧
    (slotState 2880 true).smap.cursor = some 0 ∧ vget false (slotState 2880 true).smap.marks 1 = true ∧
    vget false (slotState 2880 false).smap.marks 1 = false := by decide

theorem witness_LayoutOrder : defaultImage.slots ≤ 6 := by decide

/-! ### Witnesses: ignition sense and operating state -/

/-- Cylinder 1's spark window is open. -/
def sparkState (angle : Option Int) : State := { on with igsu := on.igsu.set .c1 (some ⟨0, 0, 0, angle⟩) }

theorem witness_SparkSense : (sparkState none).running = true ∧ (sparkState none).igsu.get .c1 = some ⟨0, 0, 0, none⟩ ∧
    on.igsu.get .c1 = none ∧ (sparkState (some 720)).igsu.get .c1 = some ⟨0, 0, 0, some 720⟩ := by decide

/-- A declaration of load band 3 that started at 0 and runs for 2,000,000 ticks. -/
def someDecl : Declaration := ⟨true, 3, 1, 0, 2000000⟩

/-- The part with the declarations of the three ports. -/
def declState (a b c : Option Declaration) : State := { on with ops := { Ops.reset with decl := ⟨a, b, c⟩ } }

theorem witness_MergedState :
    (declState (some someDecl) none none).ops.decl.a = some someDecl ∧
    ((declState none (some someDecl) none).ops.decl.a = none ∧ (declState none (some someDecl) none).ops.decl.b = some someDecl) ∧
    (declState none none (some someDecl)).ops.decl.c = some someDecl ∧ on.ops.decl.c = none ∧ on.running = true := by decide

theorem witness_DeclareState : readyA.ready .a ∧ (1 : Byte).toNat ≤ 1 ∧ (63 : Byte).toNat ≤ 63 ∧ 1 < (2 : Byte).toNat ∧
    63 < (64 : Byte).toNat := ⟨ready_readyA, by decide⟩

theorem witness_DeclarationLapse : on.running = true ∧ on.ops.decl.get .a = none ∧
    (declState (some someDecl) none none).ops.decl.get .a = some someDecl ∧
    ((1999999 : Stamp) - someDecl.start).toNat < someDecl.duration ∧ someDecl.duration ≤ ((2000000 : Stamp) - someDecl.start).toNat := by
  decide

/-! ### Witnesses: misfire -/

theorem witness_MisfireVerdicts :
    let x := figureMisfire 15000 15300 15060 [300, 250, 280, 900, 260, 310, 270, 290]
    ({ x with tk := none } : MisfireInputs).tk = none ∧ x.tPrev = some 15000 ∧ x.tk = some 15300 ∧ x.tNext = some 15060 ∧
    599 < defaultImage.minSpeed ∧ defaultImage.minSpeed ≤ 600 ∧ 10000 < 10001 ∧ x.rpm ≤ 10000 ∧
    ({ x with cut := some .spark } : MisfireInputs).cut = some .spark ∧ ({ x with cut := some .fuel } : MisfireInputs).cut = some .fuel ∧
    x.cut = none ∧ x.cutPrev = false ∧ x.cutNext = false ∧ (2 * (15300 : Int) - 15000 - 15060 = 540) ∧
    (-32767 ≤ Int.tdiv (540 * 32768) 15300 ∧ Int.tdiv (540 * 32768) 15300 ≤ 32767) ∧
    32767 < Int.tdiv (2 * 15300 * 32768) 15300 ∧ Int.tdiv (-2 * 15300 * 32768) 15300 < -32767 ∧
    [1, 2, 3, 4, 5, 6, 7].length < 8 ∧ x.history.length = 8 ∧ x.snap.stale = false ∧ x.snap.band < 4 := by decide

/-- An instance of slot 1, cylinder 3, without an assessor's part. -/
def someInst : SlotInst :=
  { slot := 1, cycle := 7, row := 1, cyl := .c3, sensor := .ks1, snapshot := some ⟨.setA, 2, false, false⟩, spark := some ⟨none, none⟩,
    knockPlace := none, guardPlace := .empty, misfire := none, knock := none }

/-- The part with one instance in the pending list. -/
def instState (i : SlotInst) (cons : Nat) : State :=
  { on with cyt := { Cyt.reset with pendingList := [i] }, mfa := { Mfa.reset with counts := Mfa.reset.counts.set .c3 ⟨cons, false, 0⟩ } }

theorem witness_MisfireDecision :
    let find : State → Option SlotInst := fun s =>
      s.cyt.pendingList.find? fun y => decide (y.slot = someInst.slot) && decide (y.cycle = someInst.cycle)
    let j : MisfireJudged := ⟨.misfire, none, some ⟨1156, 740, 280⟩⟩
    find (instState someInst 2) = some someInst ∧ someInst.knock = none ∧ (j.verdict = .misfire → j.index.isSome) ∧
    (plainMisfire .notAssessed (some .warmup)).index = none ∧ (plainMisfire .notAssessed (some .warmup)).verdict ≠ .misfire ∧
    (¬ (instState someInst 2).cfg.active.consLimit ≤ min 255 (2 + 1)) ∧ (instState someInst 3).cfg.active.consLimit ≤ min 255 (3 + 1) := by
  decide

/-! ### Witnesses: knock -/

theorem witness_KnockSample : on.running = true ∧ ((20 : Stamp) - on.kfe.lastSample).toNat = 20 * (0 + 1) ∧ NoWindowRecorded on ∧
    (¬ ∃ k : Nat, ((19 : Stamp) - on.kfe.lastSample).toNat = 20 * (k + 1)) := by
  refine ⟨by decide, by decide, fun h => absurd h (by decide), ?_⟩
  rintro ⟨k, hk⟩
  have h : ((19 : Stamp) - on.kfe.lastSample).toNat = 19 := by decide
  omega

/-- A KNOCK_RAW capture of cylinder 1 that records a window on sensor 0 into `words`. -/
def rawState (words : List Half) : State :=
  { on with
    kfe := { Kfe.reset with chain := ⟨{ SensorChain.reset with knock := some ⟨0, 0, 0, .c1, .g8, 0, 0, false⟩ }, .reset⟩ }
    cap := { Cap.reset with unit := .filling, active := some 1, mem := ⟨words⟩, window := some ⟨.ks0, 0⟩,
                            requests := [{ toothRequest with kind := .knockRaw, target := some .c1 }] } }

theorem witness_RawSampleStored :
    let s := rawState [7, 8, 0, 0]
    s.running = true ∧ ((20 : Stamp) - s.kfe.lastSample).toNat = 20 * (0 + 1) ∧ s.cap.unit = .filling ∧
    s.cap.activeRequest = some { toothRequest with kind := .knockRaw, target := some .c1 } ∧ s.cap.window = some ⟨.ks0, 0⟩ ∧
    s.kfe.chain.s0.knock = some ⟨0, 0, 0, .c1, .g8, 0, 0, false⟩ ∧ 0 + 4 ≤ s.cap.mem.words.length ∧ s.cap.mem.words.length < 4096 := by
  decide

theorem witness_RawSampleStored_full : (rawState (List.replicate 4096 0)).cap.mem.words.length = 4096 := List.length_replicate

theorem witness_WindowResults :
    (⟨0, 0, 0, .c1, .g8, 3, 0, false⟩ : KnockIntegrator).n < 4 ∧ 4 ≤ (⟨0, 0, 0, .c1, .g8, 4, 0, false⟩ : KnockIntegrator).n ∧
    (⟨0, 0, 0, .c1, .g8, 4, 0, true⟩ : GuardIntegrator).void = true ∧ (⟨0, 0, 0, .c1, .g8, 3, 0, false⟩ : GuardIntegrator).void = false := by
  decide

/-- Row 0 with a gain in use and a low-run count. -/
def gainState (g : Gain) (low : Nat) : State := { on with kfe := { Kfe.reset with rows := vset Kfe.reset.rows 0 ⟨g, low⟩ } }

theorem witness_AutoRange :
    let k : KnockIntegrator := ⟨0, 0, 0, .c1, .g8, 250, 125000, false⟩
    k.row < 12 ∧ (defaultImage.row 4).autoRange = false ∧ (defaultImage.row 0).autoRange = true ∧
    ((gainState .g16 0).kfe.rowGain 0).gain ≠ k.gain ∧ ((gainState .g8 14).kfe.rowGain 0).gain = k.gain ∧
    ({ k with clip := true } : KnockIntegrator).clip = true ∧ k.clip = false ∧ Gain.g8 ≠ .g1 ∧ Gain.g8 ≠ .g32 ∧
    ((gainState .g1 0).kfe.rowGain 0).gain = .g1 ∧ ((gainState .g32 15).kfe.rowGain 0).gain = .g32 ∧
    min 65535 (2 * k.sum / k.n) < 1024 ∧ 1024 ≤ min 65535 (2 * 128000 / 250) ∧
    ((gainState .g8 14).kfe.rowGain 0).lowRun + 1 < 16 ∧ 16 ≤ ((gainState .g8 15).kfe.rowGain 0).lowRun + 1 := by decide

theorem witness_KnockVerdicts :
    let g : GuardResult := ⟨.valid, some 12090, 83, .g8⟩
    let x := figureKnock 20000 (.result g)
    ({ x with overspeed := true } : KnockInputs).overspeed = true ∧ x.overspeed = false ∧
    ({ x with cut := some .spark } : KnockInputs).cut.isSome ∧ x.cut = none ∧ x.knock.noWindow = false ∧ x.knock.clipped = false ∧
    ({ x.knock with noWindow := true } : KnockResult).noWindow = true ∧ ({ x.knock with clipped := true } : KnockResult).clipped = true ∧
    x.guard = .result g ∧ g.state = .valid ∧ g.gn = some 12090 ∧
    defaultImage.guardThr ≤ min 65535 (12090 * 256 / max 4030 defaultImage.refFloor) ∧
    min 65535 (12089 * 256 / max 4030 defaultImage.refFloor) < defaultImage.guardThr ∧
    vget 0 (defaultImage.knockTable .setA) 6 ≤ min 65535 (40000 * 256 / 16000) ∧
    min 65535 (39999 * 256 / 16000) < vget 0 (defaultImage.knockTable .setA) 6 ∧
    (figureKnock 20000 .notConfigured).guard.state ≠ .valid := by decide

theorem witness_RetardAndReferences :
    let x := figureKnock 40000 .notConfigured
    defaultImage.refFloor ≤ 2097120 ∧ x.overspeed = false ∧ x.cut = none ∧ x.knock.noWindow = false ∧ x.knock.clipped = false ∧
    x.guard.gn = none ∧ (figureKnock 1 (.result ⟨.valid, some 12089, 83, .g8⟩)).guard.gn = some 12089 ∧
    min 65535 (12089 * 256 / max 4030 defaultImage.refFloor) < defaultImage.guardThr ∧ Cyl.c1 ≠ x.cyl ∧ Sensor.ks0 ≠ x.sensor ∧
    vget 0 (defaultImage.knockTable x.set) x.band ≤ min 65535 (x.knock.inorm.getD 0 * 256 / 16000) ∧
    min 65535 (39999 * 256 / 16000) < vget 0 (defaultImage.knockTable x.set) x.band ∧
    2 * vget 0 (defaultImage.knockTable x.set) x.band ≤ min 65535 (80000 * 256 / 16000) ∧
    defaultImage.recoveryCycles ≤ 19 + 1 ∧ 18 + 1 < defaultImage.recoveryCycles := by decide

theorem witness_RetardReset : readyA.ready .a ∧ ([] : List Byte).length ≠ 1 ∧ ([] : List Byte).length ≤ 250 ∧ 63 < (64 : Byte).toNat ∧
    (63 : Byte) ≠ 0 ∧ (63 : Byte).toNat ≤ 63 ∧ (1 : Byte) ≠ 0 ∧ (1 : Byte).getLsbD 0 = true ∧ (1 : Byte).getLsbD 5 = false :=
  ⟨ready_readyA, by decide⟩

/-! ### Witnesses: the cylinder table -/

/-- The instance with both assessors' parts. -/
def bothParts : SlotInst :=
  { someInst with
    misfire := some ⟨plainMisfire .notAssessed (some .warmup), 0, 0⟩
    knock := some ⟨⟨.clean, none, some 320, some 20000, .g8, .notConfigured, none⟩, 16250⟩ }

theorem witness_Completion :
    let find : State → SlotInst → Option SlotInst := fun s i =>
      s.cyt.pendingList.find? fun y => decide (y.slot = i.slot) && decide (y.cycle = i.cycle)
    find (instState someInst 0) someInst = some someInst ∧ someInst.misfire = none ∧
    find (instState bothParts 0) bothParts = some bothParts ∧ bothParts.misfire.isSome ∧ bothParts.knock.isSome ∧
    bothParts.snapshot.isSome ∧ bothParts.spark.isSome ∧ (instState bothParts 0).cap.requests = [] := by decide

/-! ### Witnesses: ports, requests and records -/

theorem witness_ReadsChangeNothing : readyA.ready .a ∧ 1 ≤ (1 : Byte).toNat ∧ (6 : Byte).toNat ≤ 6 ∧ 6 < (7 : Byte).toNat ∧
    ((1 : Byte).toNat ≤ 1 ∧ (11 : Byte).toNat ≤ 11 ∧ (11 : Byte).toNat + (1 : Byte).toNat ≤ 12) ∧ 1 < (2 : Byte).toNat ∧
    12 < (11 : Byte).toNat + (2 : Byte).toNat ∧ (4 : Byte).toNat ≤ 4 ∧ 4 < (5 : Byte).toNat := ⟨ready_readyA, by decide⟩

theorem witness_RefusedRequests : readyA.ready .a ∧ (List.replicate 250 (0 : Byte)).length ≤ 250 ∧
    ∀ n ∈ [0, 1, 3, 4, 5, 6], (List.replicate 250 (0 : Byte)).length ≠ n := ⟨ready_readyA, by decide +kernel⟩

theorem witness_Selections :
    on.running = true ∧ (on.ports.get .a).selection = .idle ∧ on.startUp = false ∧ (on.ports.get .a).busy = false ∧
    ({ on with startUp := true } : State).startUp = true ∧ (readyA.ports.get .a).selection ≠ .idle ∧
    requestFrame (.noOp 7 .a []) = some (7, .a, [0, 0, 0]) ∧
    ({ on with ports := on.ports.set .a { PortState.reset with selection := .refused, busy := true } } : State).ports.a.selection = .refused := by
  decide

/-- Decided parts at both ends of the tables of joined codes. -/
theorem witness_RecordOffer :
    (∀ x ∈ [(MisfireVerdict.notAssessed, some MisfireReason.warmup, 0), (.cut, some .fuel, 6), (.neighborCut, none, 7)],
      x ∈ [(MisfireVerdict.notAssessed, some MisfireReason.warmup, 0), (.notAssessed, some .lowSpeed, 1), (.notAssessed, some .overspeed, 2),
           (.noMisfire, none, 3), (.misfire, none, 4), (.rough, none, 5), (.cut, some .spark, 6), (.cut, some .fuel, 6),
           (.neighborCut, none, 7)] ∧ misfireCode ⟨x.1, x.2.1, none⟩ = x.2.2) ∧
    (∀ x ∈ [(KnockVerdict.notAssessed, some KnockReason.overspeed, 1), (.noWindow, none, 7)],
      x ∈ [(KnockVerdict.notAssessed, some KnockReason.overspeed, 1), (.notAssessed, some .cut, 2), (.clean, none, 3), (.knock, none, 4),
           (.noise, none, 5), (.clipped, none, 6), (.noWindow, none, 7)]) := by decide

theorem witness_Subscribe : readyA.ready .a ∧ (3 : Byte).toNat * 256 + (255 : Byte).toNat < 1024 ∧ (1 : Byte).toNat ≤ 1 ∧
    1024 ≤ (4 : Byte).toNat * 256 + (0 : Byte).toNat ∧ 1 < (2 : Byte).toNat := ⟨ready_readyA, by decide⟩

/-- A SYNC record. -/
def someRecord : Record := syncRecord 5 0 .seek .edge .normal

/-- Port A ready with one record held. -/
def holdingA : State := serving .a { on with ports := on.ports.set .a { PortState.reset with queue := [someRecord] } }

theorem witness_FetchRecords : readyA.ready .a ∧ holdingA.ready .a ∧ (0 : Byte).toNat = 0 ∧ (1 : Byte).toNat ≠ 0 ∧
    (readyA.ports.get .a).queue = [] ∧ (holdingA.ports.get .a).queue ≠ [] :=
  ⟨ready_readyA, ⟨by decide, by decide⟩, by decide⟩

theorem witness_ClearQueue : holdingA.ready .a ∧ [(0 : Byte)] ≠ [] ∧ [(0 : Byte)].length ≤ 250 := ⟨⟨by decide, by decide⟩, by decide⟩

theorem witness_AlertCommands : readyA.ready .a ∧ (31 : Byte).toNat < 32 ∧ 32 ≤ (32 : Byte).toNat ∧ ([] : List Byte).length ≠ 1 ∧
    ([] : List Byte).length ≤ 250 := ⟨ready_readyA, by decide⟩

theorem witness_Attention : PortState.reset.watermark = 0 ∧ PortState.reset.alertMask = 0 ∧
    (({ PortState.reset with alerts := 16 } : PortState).alerts.getLsbD 4 = true) ∧ readyA.ready .a ∧ (31 : Byte).toNat < 32 :=
  ⟨by decide, by decide, by decide, ready_readyA, by decide⟩

/-! ### Witnesses: the capture unit -/

/-- Port A ready, with a capture unit. -/
def capState (c : Cap) : State := { readyA with cap := c }

theorem ready_capState (c : Cap) : (capState c).ready .a := ready_readyA

/-- A request of port B that waits for MARK_A. -/
def waitingB : Request :=
  { handle := 2, port := .b, kind := .tooth, target := none, count := 1, named := 0x20, latched := 0, mode := .once, state := .waiting }

/-- The unit HELD for port A's request, port B's request waiting. -/
def heldCap : Cap :=
  { Cap.reset with unit := .held, active := some 1, mem := ⟨[1, 2, 3]⟩, recorded := 1, started := true, holdTicks := 4000000,
                   requests := [toothRequest, waitingB], nextHandle := 3 }

/-- The unit FREE, port B's request waiting for MARK_A. -/
def freeCap : Cap := { Cap.reset with requests := [waitingB], nextHandle := 3 }

/-- The unit and its list agree, from the finitely many things to look at. -/
theorem agrees_of_checks (s : State) (hm : s.cap.mem.wf = true) (hl : s.cap.requests.length ≤ 6)
    (ha : ∀ p ∈ [Port.a, .b, .c], (s.cap.requests.filter fun r => decide (r.port = p)).length ≤ 2)
    (hn : 1 ≤ s.cap.nextHandle ∧ s.cap.nextHandle ≤ 255) (hd : (s.cap.requests.map (·.handle)).Nodup)
    (hr : ∀ r ∈ s.cap.requests, (1 ≤ r.handle ∧ r.handle ≤ 255) ∧ r.latched &&& r.named = r.latched ∧
      (r.state = .waiting ↔ r.latched ≠ r.named) ∧ (r.state = .active → s.cap.active = some r.handle) ∧
      (s.cap.unit = .free → r.state ≠ .triggered))
    (hf : s.cap.unit = .free ↔ s.cap.active = none)
    (hc : ∀ h ∈ s.cap.active, ∃ r ∈ s.cap.requests, r.handle = h ∧ r.state = .active) : CaptureAgrees s where
  fits := ⟨hm, hl, fun p => ha p (by cases p <;> decide)⟩
  next := hn
  distinct := hd
  range := fun r h => (hr r h).1
  latches := fun r h => (hr r h).2.1
  waits := fun r h => (hr r h).2.2.1
  free := hf
  named := fun h e => hc h e
  active := fun r h => (hr r h).2.2.2.1
  granted := fun e r h => (hr r h).2.2.2.2 e

theorem agrees_heldCap : CaptureAgrees (capState heldCap) :=
  agrees_of_checks _ (by decide) (by decide) (by decide) (by decide) (by decide) (by decide) (by decide) (by decide)

theorem agrees_freeCap : CaptureAgrees (capState freeCap) :=
  agrees_of_checks _ (by decide) (by decide) (by decide) (by decide) (by decide) (by decide) (by decide) (by decide)

/-- The unit FILLING for port A's request, port B's request waiting. -/
def fillingCap : Cap := { heldCap with unit := .filling, mem := ⟨[]⟩, recorded := 0 }

theorem agrees_fillingCap : CaptureAgrees (capState fillingCap) :=
  agrees_of_checks _ (by decide) (by decide) (by decide) (by decide) (by decide) (by decide) (by decide) (by decide)

theorem witness_PortReset : (capState freeCap).ready .a ∧ CaptureAgrees (capState freeCap) ∧ freeCap.unit = .free ∧
    freeCap.owner ≠ some .a ∧ (capState heldCap).ready .a ∧ CaptureAgrees (capState heldCap) ∧ heldCap.owner = some .a ∧
    (serving .b (capState heldCap)).ready .b ∧ CaptureAgrees (serving .b (capState heldCap)) ∧ heldCap.owner ≠ some .b :=
  ⟨ready_readyA, agrees_freeCap, by decide, by decide, ready_readyA, agrees_heldCap, by decide, ⟨by decide, by decide⟩,
   agrees_of_checks _ (by decide) (by decide) (by decide) (by decide) (by decide) (by decide) (by decide) (by decide), by decide⟩

theorem witness_CaptureRequest : (capState freeCap).ready .a ∧ CaptureAgrees (capState freeCap) ∧ CaptureAgrees (capState heldCap) ∧
    1 < (2 : Byte).toNat ∧ (3 : Byte).getLsbD 0 = true ∧ (3 : Byte) ≠ 1 ∧
    6 ≤ (List.replicate 6 waitingB).length ∧ 2 ≤ ([toothRequest, toothRequest].filter fun r => decide (r.port = .a)).length ∧
    (∀ q ∈ freeCap.requests, q.handle ≠ freeCap.nextHandle) ∧ freeCap.unit = .free ∧ heldCap.unit ≠ .free ∧
    defaultImage.hasCyl .c1 = true ∧ defaultImage.hasCyl .c5 = false ∧
    (¬ ((0x20 : Byte) = 1#8 ∨ ((0x20 : Byte) = 2#8 ∧ readyA.adec.sync = .fullSync))) ∧
    ((withAdec fun a => { a with sync := .fullSync }).adec.sync = .fullSync) :=
  ⟨ready_readyA, agrees_freeCap, agrees_heldCap, by decide⟩

theorem witness_Mark : (capState freeCap).ready .a ∧ CaptureAgrees (capState freeCap) ∧ CaptureAgrees (capState heldCap) ∧
    heldCap.unit ≠ .free ∧ freeCap.unit = .free ∧ waitingB ∈ freeCap.requests ∧ waitingB.state = .waiting ∧
    waitingB.named &&& 0x20 = 0x20 ∧ waitingB.latched ||| 0x20 = waitingB.named := ⟨ready_readyA, agrees_freeCap, agrees_heldCap, by decide⟩

theorem witness_CaptureRead :
    let own : Cap → Nat → Option Request := fun c h => c.requests.find? fun r => decide (r.handle = h) && decide (r.port = .a)
    (capState heldCap).ready .a ∧ (0 : Byte).toNat = 0 ∧ own heldCap 2 = none ∧ own heldCap 1 = some toothRequest ∧
    toothRequest.state = .active ∧ heldCap.unit = .held ∧ fillingCap.unit ≠ .held ∧ own fillingCap 1 = some toothRequest ∧
    (120 < (121 : Byte).toNat ∧ heldCap.mem.words.length ≤ 3) ∧ (1 ≤ (1 : Byte).toNat ∧ (120 : Byte).toNat ≤ 120 ∧ 2 < heldCap.mem.words.length) :=
  ⟨ready_readyA, by decide⟩

/-- The held unit with port A's request in another mode and with other named conditions. -/
def heldAs (m : CapMode) (named : Byte) : Cap :=
  { heldCap with requests := [{ toothRequest with mode := m, named := named, latched := named }, waitingB] }

theorem agrees_heldAs : CaptureAgrees (capState (heldAs .repeating 4)) ∧ CaptureAgrees (capState (heldAs .repeating 1)) :=
  ⟨agrees_of_checks _ (by decide) (by decide) (by decide) (by decide) (by decide) (by decide) (by decide) (by decide),
   agrees_of_checks _ (by decide) (by decide) (by decide) (by decide) (by decide) (by decide) (by decide) (by decide)⟩

theorem witness_CaptureRelease : (capState heldCap).ready .a ∧ CaptureAgrees (capState heldCap) ∧ toothRequest ∈ heldCap.requests ∧
    toothRequest.handle = (1 : Byte).toNat ∧ toothRequest.port = .a ∧ fillingCap.unit ≠ .held ∧ toothRequest.state = .active ∧
    heldCap.unit = .held ∧ (∀ q ∈ heldCap.requests, q.state ≠ .triggered) ∧ toothRequest.mode = .once ∧
    CaptureAgrees (capState (heldAs .repeating 4)) ∧ CaptureAgrees (capState (heldAs .repeating 1)) ∧ (4 : Byte).getLsbD 0 = false ∧
    toothRequest.kind = .tooth :=
  ⟨ready_readyA, agrees_heldCap, by decide, by decide, by decide, by decide, by decide, by decide, by decide, by decide, agrees_heldAs.1,
   agrees_heldAs.2, by decide, by decide⟩

theorem witness_CancelAndExpiry : CaptureAgrees (capState heldCap) ∧ (capState heldCap).ready .a ∧ toothRequest ∈ heldCap.requests ∧
    toothRequest.handle = (1 : Byte).toNat ∧ toothRequest.port = .a ∧ toothRequest.state = .active ∧ waitingB ∈ heldCap.requests ∧
    waitingB.state ≠ .active ∧ waitingB.handle = (2 : Byte).toNat ∧ (serving .b (capState heldCap)).ready .b ∧
    (∀ q ∈ heldCap.requests, q.state ≠ .triggered) ∧ heldCap.active = some toothRequest.handle ∧
    heldCap.holdTicks ≤ ((4000000 : Stamp) - heldCap.holdStart).toNat ∧ ((3999999 : Stamp) - heldCap.holdStart).toNat < heldCap.holdTicks ∧
    heldCap.unit = .held ∧ freeCap.unit ≠ .held :=
  ⟨agrees_heldCap, ready_readyA, by decide, by decide, by decide, by decide, by decide, by decide, by decide, ⟨by decide, by decide⟩,
   by decide, by decide, by decide, by decide, by decide, by decide⟩

/-! ### Witnesses: the configuration stage -/

/-- Port A ready in FULL_SYNC, with a staging state. -/
def cfgState (sync : SyncState) (c : Cfg) : State := { readyA with adec := { Adec.reset with sync := sync }, cfg := c }

/-- A commit is pending. -/
def pendingCfg : Cfg := { Cfg.reset with pendingCommit := some ⟨.atCycle, .calibration, .a⟩ }

theorem witness_Staging : (cfgState .fullSync pendingCfg).ready .a ∧ pendingCfg.pendingCommit.isSome ∧ Cfg.reset.pendingCommit = none ∧
    itemInRange 33 10000 = true ∧ itemInRange 33 10001 = false ∧ itemInRange 0 1 = false ∧ itemInRange 34 1 = false ∧
    itemInRange 1 13 = false ∧ itemInRange 1 12 = true ∧ (4095 : Nat) ≠ 0 ∧ (4095 : Nat) < 4096 ∧ (4095 : Nat).testBit 11 = true ∧
    (2047 : Nat).testBit 11 = false := ⟨ready_readyA, by decide⟩

theorem witness_Discard : readyA.ready .a ∧ [(0 : Byte)] ≠ [] ∧ [(0 : Byte)].length ≤ 250 := ⟨ready_readyA, by decide⟩

theorem witness_Commit : (cfgState .fullSync pendingCfg).ready .a ∧ 1 < (2 : Byte).toNat ∧ (1 : Byte).toNat ≤ 1 ∧
    pendingCfg.pendingCommit.isSome ∧ Cfg.reset.pendingCommit = none ∧ failedCheck (defaultImage.setItem 10 1) = some (1, 255) ∧
    failedCheck Cfg.reset.staged = none ∧ ((1 : Byte).toNat = 1 ∧ (cfgState .fullSync Cfg.reset).adec.sync = .fullSync) ∧
    (¬ ((0 : Byte).toNat = 1)) ∧ Cfg.reset.staged = Cfg.reset.active ∧ (defaultImage.setItem 1 36).item 1 ≠ defaultImage.item 1 ∧
    ((defaultImage.setItem 9 1).setItem 10 4).slots = defaultImage.slots ∧
    ((defaultImage.setItem 9 1).setItem 10 4).runStart ≠ defaultImage.runStart := ⟨ready_readyA, by decide⟩

/-! ### Witnesses: the clauses about whole blocks, at the ends of their ranges -/

/-- In sync at tooth index 57, the next tooth behind the gap, with a gap end at 0. -/
def gapState (sync : SyncState) : State :=
  { toothState sync 57 with adec := { (toothState sync 57).adec with lastGapEnd := some 0 } }

/-- An edge that keeps crank sync, at the ends of the noise filter and of the gap test: a tooth, and a gap end. -/
theorem keeps_toothState : KeepsCrankSync (toothState .fullSync 56) 1249 ((toothState .fullSync 56).adec.nextTooth defaultImage 1249 249) :=
  ⟨1000, rfl, by decide, .inl ⟨by unfold GapPeriod; decide, by decide, by decide⟩⟩

theorem keeps_gapState : KeepsCrankSync (gapState .crankSync) 1250 ((gapState .crankSync).adec.nextGapEnd defaultImage 1250 250 0) :=
  ⟨1000, rfl, by decide, .inr ⟨by unfold GapPeriod; decide, by decide, 0, rfl, by decide⟩⟩

theorem witness_NoiseFilter_accepted :
    (toothState .fullSync 56).running = true ∧ (toothState .fullSync 56).adec.sync = .fullSync ∧ (gapState .crankSync).running = true ∧
    (gapState .crankSync).adec.sync = .crankSync ∧ NoToothCapture (toothState .fullSync 56) ∧ NoToothCapture (gapState .crankSync) ∧
    KeepsCrankSync (gapState .crankSync) 1250 ((gapState .crankSync).adec.nextGapEnd defaultImage 1250 250 0) ∧
    KeepsCrankSync (toothState .fullSync 56) 1249 ((toothState .fullSync 56).adec.nextTooth defaultImage 1249 249) ∧
    (toothState .fullSync 56).adec.toothAngle ≤ ((toothState .fullSync 56).adec.nextTooth defaultImage 1249 249).toothAngle :=
  ⟨by decide, by decide, by decide, by decide, fun h => absurd h (by decide), fun h => absurd h (by decide), keeps_gapState,
   keeps_toothState, by decide⟩

/-- The last tooth before the cycle boundary, the in-window mark clear, with a number of cam faults in a row and a staging state. -/
def missedState (faults : Nat) (c : Cfg) : State :=
  let s := boundaryState 4 11424 Ops.reset
  { s with adec := { s.adec with inWindow := false, camFaults := faults }, cfg := c }

theorem keeps_missedState (faults : Nat) (c : Cfg) (h : c.active = defaultImage) :
    KeepsCrankSync (missedState faults c) 1249 ((missedState faults c).adec.nextTooth defaultImage 1249 249) :=
  ⟨1000, rfl, by show 996 ≤ _; decide, .inl (by
    show ¬ GapPeriod c.active.missing 100 _ ∧ 4 + 1 + c.active.missing < c.active.nPos ∧ _ = Adec.nextTooth _ c.active _ _
    rw [h]
    exact ⟨by unfold GapPeriod; decide, by decide, rfl⟩)⟩

theorem witness_CycleBoundary_missed :
    let s := missedState 1 Cfg.reset
    let u := missedState 2 Cfg.reset
    let a := s.adec.nextTooth defaultImage 1249 249
    (s.running = true ∧ s.adec.sync = .fullSync ∧ s.cfg.pendingCommit = none ∧ a.toothAngle < s.adec.toothAngle ∧ s.adec.camFaults < 2 ∧
      u.adec.inWindow = false ∧ 2 ≤ u.adec.camFaults ∧ u.cap.unit = .free) ∧
    KeepsCrankSync s 1249 a ∧ KeepsCrankSync u 1249 (u.adec.nextTooth defaultImage 1249 249) :=
  ⟨by decide, keeps_missedState 1 Cfg.reset rfl, keeps_missedState 2 Cfg.reset rfl⟩

theorem witness_AngleReached_windows :
    vget false (slotState 0 true).smap.marks 1 = true ∧ vget false (slotState 0 false).smap.marks 1 = false ∧
    NoRawCapture (slotState 0 true) := ⟨by decide, by decide, fun h => absurd h (by decide)⟩

theorem witness_LayoutOrder_events :
    defaultImage.slots ≤ 6 ∧ 0 < defaultImage.toothAngle ∧ (⟨-1, .sparkOpen, 0⟩ : LayoutEvent).angle < 0 ∧
    (0 ≤ (⟨0, .slotBoundary, 0⟩ : LayoutEvent).angle ∧ (⟨11519, .slotBoundary, 0⟩ : LayoutEvent).angle < 11520) ∧
    11520 ≤ (⟨11520, .guardClose, 3⟩ : LayoutEvent).angle := by decide

theorem witness_SparkSense_close :
    let tracked : State → State := fun s => { s with smap := ⟨some 0, vset (.replicate 6 false) 0 true⟩ }
    let inst : SlotInst := { someInst with slot := 0, cycle := 0, cyl := .c1 }
    let s := tracked { sparkState (some 720) with cyt := { Cyt.reset with pendingList := [inst] } }
    vget false (tracked on).smap.marks 0 = true ∧ (tracked on).igsu.get .c1 = none ∧ (defaultImage.row (defaultImage.runStart + 0)).cyl = .c1 ∧
    vget false s.smap.marks 0 = true ∧ s.igsu.get .c1 = some ⟨0, 0, 0, some 720⟩ ∧ inst.snapshot.isSome ∧
    s.cyt.pendingList.find? (fun y => decide (y.slot = 0) && decide (y.cycle = 0)) = some inst := by decide

theorem witness_MisfireDecision_boundary :
    let named : State → Option SlotInst := fun s =>
      s.cyt.pendingList.find? fun y => decide (y.slot = 3 - 2) && decide (y.cycle = 7)
    (⟨8640, .segment, 3⟩ : LayoutEvent).instCycle 7 = 7 ∧ named on = none ∧
    named (instState bothParts 0) = some bothParts ∧ bothParts.misfire.isSome = true ∧
    named (instState someInst 0) = some someInst ∧ someInst.misfire = none ∧ someInst.snapshot.isSome := by decide

/-- The same capture with another window, count and number of words. -/
def rawCap (words : List Half) (w : Option CapWindow) (count : Nat) : State :=
  { rawState words with
    cap := { (rawState words).cap with
             window := w, requests := [{ toothRequest with kind := .knockRaw, target := some .c1, count := count }] } }

theorem witness_RawSampleStored_notices :
    let s := rawCap [7, 8, 0, 0] (some ⟨.ks0, 0⟩) 1
    let r : Request := { toothRequest with kind := .knockRaw, target := some .c1, count := 1 }
    s.cap.unit = .filling ∧ s.cap.activeRequest = some r ∧ r.kind = .knockRaw ∧ r.target ≠ some .c3 ∧ r.target = some .c1 ∧
    (4092 + 4 ≤ 4096 ∧ 4096 < 4093 + 4 ∧ (List.replicate 4093 (0 : Half)).length = 4093) ∧
    s.cap.window = some ⟨.ks0, 0⟩ ∧ s.cap.recorded + 1 = r.count ∧
    (rawCap [7, 8, 0, 0] (some ⟨.ks0, 0⟩) 2).cap.recorded + 1 ≠ ({ r with count := 2 } : Request).count ∧
    (rawCap [] none 1).cap.window ≠ some ⟨.ks0, 0⟩ ∧ s.cfg.active.hasCyl .c1 = true ∧ defaultImage.hasCyl .c5 = false :=
  ⟨by decide, by decide, by decide, by decide, by decide, ⟨by decide, by decide, List.length_replicate⟩, by decide, by decide, by decide,
   by decide, by decide, by decide⟩

theorem witness_RawSampleStored_windows :
    let s : State := { rawCap [7, 8, 0, 0] (some ⟨.ks0, 0⟩) 1 with smap := ⟨some 0, vset (.replicate 6 false) 0 true⟩ }
    vget false s.smap.marks 0 = true ∧ (s.cfg.active.row (s.cfg.active.runStart + 0)).sensor = .ks0 ∧
    (s.kfe.chain.get .ks0).knock = some ⟨0, 0, 0, .c1, .g8, 0, 0, false⟩ := by decide

/-- A TOOTH capture with `words` recorded, in CRANK_SYNC before an edge that keeps crank sync. -/
def toothCap (s : State) (started : Bool) (words : List Half) : State :=
  { s with cap := { Cap.reset with unit := .filling, active := some 1, mem := ⟨words⟩, started := started, requests := [toothRequest] } }

theorem witness_RawSampleStored_tooth :
    let s := toothCap (gapState .crankSync) true (List.replicate 4095 0)
    (KeepsCrankSync s 1250 (s.adec.nextGapEnd defaultImage 1250 250 0) ∧ (s.adec.nextGapEnd defaultImage 1250 250 0).toothIndex = 0) ∧
    (let u := toothCap (toothState .fullSync 56) false []
     KeepsCrankSync u 1249 (u.adec.nextTooth defaultImage 1249 249) ∧ (u.adec.nextTooth defaultImage 1249 249).toothIndex ≠ 0 ∧
     u.cap.started = false ∧ u.adec.toothAngle ≤ (u.adec.nextTooth defaultImage 1249 249).toothAngle) ∧
    s.running = true ∧ s.adec.lastEdge = some 1000 ∧ s.cap.unit = .filling ∧ s.cap.activeRequest = some toothRequest ∧
    toothRequest.kind = .tooth ∧ s.cap.mem.words.length < 4096 ∧ s.cap.started = true ∧ s.cap.recorded + 1 = toothRequest.count :=
  ⟨⟨keeps_gapState, rfl⟩, ⟨keeps_toothState, by decide, rfl, by decide⟩, rfl, rfl, rfl, rfl, rfl, by
    show (List.replicate 4095 (0 : Half)).length < 4096
    rw [List.length_replicate]; decide, rfl, rfl⟩

/-- While a TOOTH capture fills, and between two windows of a KNOCK_RAW capture, no window is recorded. -/
theorem witness_KnockSample_filling :
    (toothCap on true []).running = true ∧ (toothCap on true []).cap.unit = .filling ∧ NoWindowRecorded (toothCap on true []) ∧
    (rawCap [7, 8, 0, 0] none 1).running = true ∧ (rawCap [7, 8, 0, 0] none 1).cap.unit = .filling ∧
    NoWindowRecorded (rawCap [7, 8, 0, 0] none 1) :=
  ⟨rfl, rfl, fun _ r h hk => absurd hk (by cases h; decide), rfl, rfl, fun _ _ _ _ => rfl⟩

/-- R165, R17: a started TOOTH capture of count 1 takes the period of an edge, and is held at a gap end. -/
theorem test_toothTaken :
    ((toothCap on true [7]).toothTaken 5 250 false).cap.mem.words = [7, 250] ∧
    ((toothCap on true [7]).toothTaken 5 250 false).cap.unit = .filling ∧
    ((toothCap on true [7]).toothTaken 5 250 true).cap.unit = .held ∧
    ((toothCap on false []).toothTaken 5 250 true).cap.started = true := by decide

theorem witness_RawSampleStored_losses :
    let lost : State → State := fun s => { s with adec := { s.adec with sync := .seek } }
    (lost (rawCap [7, 8, 0, 0] none 1)).adec.sync ≠ .fullSync ∧ (rawCap [7, 8, 0, 0] none 1).cap.mem.words ≠ [] ∧
    (rawCap [7, 8, 0, 0] none 1).cap.window = none ∧ (rawCap [7, 8, 0, 0] (some ⟨.ks0, 0⟩) 1).cap.window = some ⟨.ks0, 0⟩ ∧
    (rawCap [] none 1).cap.mem.words = [] ∧ (lost (toothCap on true [])).adec.sync = .seek ∧ (toothCap on true []).cap.started = true ∧
    (toothCap on false []).cap.started = false ∧ (toothCap (gapState .crankSync) true []).adec.sync = .crankSync := by decide

theorem witness_WindowResults_closes :
    let s : State := { rawState [] with cap := Cap.reset, smap := ⟨some 0, vset (.replicate 6 false) 0 true⟩ }
    let q : GuardIntegrator := ⟨0, 0, 0, .c1, .g8, 4, 0, false⟩
    let u : State := { s with kfe := { Kfe.reset with chain := ⟨{ SensorChain.reset with guard := some q }, .reset⟩ } }
    vget false s.smap.marks 0 = true ∧ (defaultImage.row (defaultImage.runStart + 0)).sensor = .ks0 ∧
    (s.kfe.chain.get .ks0).knock = some ⟨0, 0, 0, .c1, .g8, 0, 0, false⟩ ∧ (s.kfe.chain.get .ks0).guard = none ∧
    (u.kfe.chain.get .ks0).knock = none ∧ (u.kfe.chain.get .ks0).guard = some q ∧ s.cap.unit ≠ .filling := by decide

theorem witness_KnockVerdicts_decision :
    let find : State → Option SlotInst := fun s => s.cyt.pendingList.find? fun y => decide (y.slot = 1) && decide (y.cycle = 7)
    let ready : SlotInst := { someInst with knockPlace := some ⟨250, false, false, some 1, some 4, .g8⟩, guardPlace := .notConfigured }
    find on = none ∧ find (instState someInst 0) = some someInst ∧ someInst.knockPlace = none ∧ someInst.guardPlace = .empty ∧
    find (instState bothParts 0) = some bothParts ∧ bothParts.knock.isSome = true ∧ find (instState ready 0) = some ready ∧
    ready.knockPlace.isSome ∧ ready.guardPlace ≠ .empty ∧ ready.spark.isSome ∧ ready.snapshot.isSome ∧ ready.knock = none := by decide

theorem witness_CaptureRequest_numbers :
    let numbered : Cap → Nat → Nat := fun c i => (c.nextHandle - 1 + i) % 255 + 1
    let c : Cap := { freeCap with requests := [{ waitingB with handle := 255 }, { waitingB with handle := 1 }], nextHandle := 255 }
    CaptureAgrees (capState c) ∧ (∃ q ∈ c.requests, q.handle = numbered c 0) ∧ (∃ q ∈ c.requests, q.handle = numbered c 1) ∧
    (∀ q ∈ c.requests, q.handle ≠ numbered c 2) ∧ numbered c 2 = 2 ∧ c.requests.length < 6 ∧
    (c.requests.filter fun r => decide (r.port = .a)).length < 2 ∧ c.unit = .free ∧
    (∀ n : Cyl, cylNumber n = (5 : Byte).toNat → defaultImage.hasCyl n = false) :=
  ⟨agrees_of_checks _ (by decide) (by decide) (by decide) (by decide) (by decide) (by decide) (by decide) (by decide), by decide, by decide,
   by decide, by decide, by decide, by decide, by decide, fun n => by cases n <;> decide⟩

theorem witness_Mark_order :
    let l : List Request := [{ waitingB with state := .triggered }, { toothRequest with state := .triggered },
      { toothRequest with handle := 3, state := .triggered }]
    GrantTakes l { toothRequest with state := .triggered } ∧ (l.map (·.handle)).Nodup ∧ Cap.reset.unit = .free ∧ heldCap.unit ≠ .free ∧
    (freeCap.requests.map (·.handle)).Nodup :=
  ⟨⟨rfl, by decide, [{ waitingB with state := .triggered }], [{ toothRequest with handle := 3, state := .triggered }], rfl, by decide⟩,
   by decide, by decide, by decide, by decide⟩

/-- The held unit with port B's request TRIGGERED. -/
def heldBehind : Cap := { heldCap with requests := [toothRequest, { waitingB with latched := 0x20, state := .triggered }] }

theorem agrees_heldBehind : CaptureAgrees (capState heldBehind) :=
  agrees_of_checks _ (by decide) (by decide) (by decide) (by decide) (by decide) (by decide) (by decide) (by decide)

/-- The owner resets while another port's request is TRIGGERED: a grant follows. -/
theorem witness_PortReset_grant : (capState heldBehind).ready .a ∧ CaptureAgrees (capState heldBehind) ∧ heldBehind.owner = some .a ∧
    (∃ q ∈ heldBehind.requests.filter (fun r => decide (r.port ≠ .a)), q.state = .triggered) :=
  ⟨ready_readyA, agrees_heldBehind, by decide, by decide⟩

theorem witness_CaptureRelease_others :
    (0 : Byte) = 0 ∧ (2 : Byte) ≠ 0 ∧ (∀ q ∈ heldCap.requests, q.handle = (2 : Byte).toNat → q.port ≠ .a) ∧
    (∀ q ∈ heldCap.requests, q.handle = (3 : Byte).toNat → q.port ≠ .a) ∧ CaptureAgrees (capState heldBehind) ∧
    (capState heldBehind).ready .a ∧ toothRequest ∈ heldBehind.requests ∧ heldBehind.unit = .held ∧
    (∃ q ∈ heldBehind.requests, q.state = .triggered) :=
  ⟨by decide, by decide, by decide, by decide, agrees_heldBehind, ready_readyA, by decide, by decide, by decide⟩

theorem witness_CancelAndExpiry_others :
    (∀ q ∈ heldCap.requests, q.handle = (2 : Byte).toNat → q.port ≠ .a) ∧ CaptureAgrees (capState heldBehind) ∧
    (capState heldBehind).ready .a ∧ toothRequest ∈ heldBehind.requests ∧ toothRequest.state = .active ∧ heldBehind.unit = .held ∧
    heldBehind.active = some toothRequest.handle ∧ heldBehind.holdTicks ≤ ((4000000 : Stamp) - heldBehind.holdStart).toNat ∧
    (∃ q ∈ heldBehind.requests, q.state = .triggered) :=
  ⟨by decide, agrees_heldBehind, ready_readyA, by decide, by decide, by decide, by decide, by decide, by decide⟩

/-- A commit of a staged image is pending. -/
def pendingOf (cls : CommitClass) (img : Image) : Cfg := { Cfg.reset with staged := img, pendingCommit := some ⟨.atCycle, cls, .a⟩ }

theorem witness_Commit_boundary :
    let c := pendingOf .calibration (defaultImage.setItem 5 10)
    let s := missedState 1 c
    let a := s.adec.nextTooth defaultImage 1249 249
    s.running = true ∧ s.adec.sync = .fullSync ∧ s.cfg.pendingCommit = some ⟨.atCycle, .calibration, .a⟩ ∧ KeepsCrankSync s 1249 a ∧
    a.toothAngle < s.adec.toothAngle ∧ s.adec.camFaults < 2 ∧ ¬ StallPassed 1249 (afterBoundary (s.edgeTaken 1249 a) 1249 a) ∧
    c.pendingCommit = some ⟨.atCycle, .calibration, .a⟩ ∧ (pendingOf .layout defaultImage).pendingCommit = some ⟨.atCycle, .layout, .a⟩ :=
  ⟨rfl, rfl, rfl, keeps_missedState 1 _ rfl, by decide, by decide, by decide, rfl, rfl⟩

theorem witness_Commit_syncLoss :
    let pend : State → State := fun s => { s with cfg := { s.cfg with pendingCommit := some ⟨.atCycle, .calibration, .a⟩ } }
    let s := pend (crankState .fullSync)
    let c := pend (camFull 0 0 4991 2)
    let u := missedState 2 (pendingOf .calibration defaultImage)
    (s.running = true ∧ s.adec.sync = .fullSync ∧ s.cfg.active.stallMs * 2000 ≤ ((200000 : Stamp) - s.adec.stallRef).toNat) ∧
    (c.adec.sync = .fullSync ∧ CamCounts c.cfg.active .rising ∧ c.cfg.active.camLo < 11520 ∧ c.cfg.active.camHi < 11520 ∧
      ¬ InWindow c.cfg.active.camLo c.cfg.active.camHi (c.adec.cycleAngle c.cfg.active 1294000) ∧ c.cfg.active.camEdge ≠ 2 ∧
      2 ≤ c.adec.camFaults) ∧
    (KeepsCrankSync u 1249 (u.adec.nextTooth defaultImage 1249 249) ∧ u.adec.inWindow = false ∧ 2 ≤ u.adec.camFaults) ∧
    (let w := pend (toothState .fullSync 56)
     w.adec.lastEdge = some 1000 ∧ w.adec.toothPeriod ≤ 4 * ((1250 : Stamp) - 1000).toNat ∧
     GapPeriod w.cfg.active.missing w.adec.period ((1250 : Stamp) - 1000).toNat ∧
     w.adec.toothIndex + 1 + w.cfg.active.missing < w.cfg.active.nPos) ∧
    (let w := pend (toothState .fullSync 57)
     ¬ GapPeriod w.cfg.active.missing w.adec.period ((1249 : Stamp) - 1000).toNat ∧
     w.cfg.active.nPos ≤ w.adec.toothIndex + 1 + w.cfg.active.missing) := by
  refine ⟨by decide, ?_, ⟨keeps_missedState 2 _ rfl, by decide, by decide⟩, ?_, ?_⟩
  · unfold CamCounts InWindow
    decide
  · unfold GapPeriod
    decide
  · unfold GapPeriod
    decide


theorem witness_Commit_applied :
    let old := defaultImage.setItem 5 11
    let s := { missedState 0 { Cfg.reset with active := old, staged := defaultImage.setItem 5 10 } with cap := fillingCap }
    (¬ StallPassed 19999 s ∧ StallPassed 20000 s ∧ s.adec.sync = .fullSync) ∧
    (on.adec.sync = .halted ∧ ¬ StallPassed 20000 on ∧ NothingArmed (capState heldCap) ∧ NothingArmed (capState freeCap) ∧
      ¬ NothingArmed s) ∧
    NoRawCapture s ∧
    ((defaultImage.setItem 16 161).segOffset ≠ defaultImage.segOffset ∧ someInst.misfire.isNone ∧
      ([someInst, { someInst with slot := 2 }].map fun i => (i.slot, i.cycle)).Nodup) ∧
    ((rawCap [] none 1).cap.unit = .filling ∧
      (rawCap [] none 1).cap.activeRequest = some { toothRequest with kind := .knockRaw, target := some .c1 } ∧
      (∀ n, some Cyl.c1 = some n → (defaultImage.setItem 9 1).hasCyl n = false)) ∧
    ((s.cap.requests.map (·.handle)).Nodup ∧ (s.decoderApplied 1249 .calibration).cyt.pendingList = [] ∧
      ((rawCap [7, 8, 0, 0] (some ⟨.ks0, 0⟩) 1).decoderApplied 20 .layout).kfe.chain.s0.knock.isSome) := by
  refine ⟨⟨by unfold StallPassed; decide, by unfold StallPassed; decide, rfl⟩, ⟨rfl, by unfold StallPassed; decide, .inl rfl,
    .inr ⟨rfl, by decide⟩, ?_⟩, ?_, by decide, ⟨by decide, by decide, ?_⟩, by decide, by decide, by decide⟩
  · rintro (h | h)
    · exact absurd h (by decide)
    · exact absurd h.1 (by decide)
  · intro _ r h
    cases h
    decide
  · rintro n ⟨⟩
    decide

/-- The default layout with one of its items, or row 1's guard start, changed. -/
def laidOut (k v guardStart : Nat) : Image :=
  { defaultImage.setItem k v with rows := vset defaultRows 1 { defaultRow .c3 .ks1 true with guardStart } }

theorem witness_Commit_checks :
    -- each check fails at the end of its range, the ones before it passing
    (laidOut 10 1 2240).slots = 2 ∧ (laidOut 10 2 2240).slots = 3 ∧
    (2 * ((laidOut 10 2 2240).setItem 1 16).nPos % 3 ≠ 0 ∧ 2 * (laidOut 10 2 2240).nPos % 3 = 0) ∧
    (2 * (laidOut 10 4 2240).nPos % 5 = 0 ∧ ((laidOut 10 4 2240).row 0).cyl = ((laidOut 10 4 2240).row 4).cyl ∧
      ∀ r, r < 4 → ∀ q, q < r → ((laidOut 10 4 2240).row q).cyl ≠ ((laidOut 10 4 2240).row r).cyl) ∧
    (11520 / 4 / 2 < (laidOut 16 1441 2240).segOffset ∧ ¬ 11520 / 4 / 2 < (laidOut 16 1440 2240).segOffset) ∧
    (let img := laidOut 4 192 2240
     ((img.nPos - img.missing : Nat) : Int) ≤ (img.boundary 0 - img.refOffset) % 5760 / (img.toothAngle : Int)) ∧
    (let img := laidOut 4 0 2240
     ∀ i, i < 4 → ¬ ((img.nPos - img.missing : Nat) : Int) ≤ (img.boundary i - img.refOffset) % 5760 / (img.toothAngle : Int)) ∧
    (2 * (11520 / 4) < ((laidOut 10 3 5441).row 1).guardStart + ((laidOut 10 3 5441).row 1).guardLen ∧
      ∀ r, r < 4 → let x := (laidOut 10 3 5440).row r
        ¬ 2 * (11520 / 4) < x.knockStart + x.knockLen ∧ ¬ 2 * (11520 / 4) < x.guardStart + x.guardLen) ∧
    (((laidOut 10 3 4801).row 1).sensor = ((laidOut 10 3 4801).row 2).sensor ∧
      ∃ x : Nat, x < 11520 ∧ ((x : Int) - (2880 + 4801 : Nat)) % 11520 < 320 ∧ ((x : Int) - (5760 + 2240 : Nat)) % 11520 < 320) ∧
    (¬ ∃ x : Nat, x < 11520 ∧ ((x : Int) - (2880 + 4800 : Nat)) % 11520 < 320 ∧ ((x : Int) - (5760 + 2240 : Nat)) % 11520 < 320) ∧
    ((5760 : Int) ≤ (((laidOut 8 5760 2240).camHi : Int) - (laidOut 8 5760 2240).camLo) % 11520 ∧
      ¬ (5760 : Int) ≤ (((laidOut 8 5759 2240).camHi : Int) - (laidOut 8 5759 2240).camLo) % 11520) ∧
    -- the answers on the same images
    [laidOut 10 1 2240, (laidOut 10 2 2240).setItem 1 16, laidOut 10 4 2240, laidOut 16 1441 2240, laidOut 4 192 2240,
      laidOut 10 3 5441, laidOut 10 3 4801, laidOut 8 5760 2240, laidOut 8 5759 4800].map failedCheck =
      [some (1, 255), some (2, 255), some (3, 4), some (4, 255), some (5, 0), some (6, 1), some (7, 1), some (8, 255), none] := by
  refine ⟨by decide, by decide, by decide, by decide, by decide, by decide, by decide, by decide, ⟨by decide, 8000, by decide⟩, ?_, by decide,
    by decide⟩
  rintro ⟨x, h⟩
  omega

/-- R81, R181: a commit that moves the segment boundary of slot 0 to the boundary tooth's angle: the old boundary was not there, the new
one counts from the next tooth on, and the slot boundary of slot 0 at the same angle follows the apply. -/
theorem test_segmentOffset_at_boundary :
    let s := { missedState 0 (pendingOf .calibration (defaultImage.setItem 16 95)) with smap := ⟨some 3, .replicate 6 false⟩ }
    let u := after (exec (.crankEdge 1249 .falling) s)
    u.cfg.active.segOffset = 95 ∧ u.mfa.segments = [] ∧ u.smap.cursor = some 0 ∧
    (u.cfg.active.eventsBetween 0 0).map (fun e => (e.kind, e.slot)) = [(.segment, 0), (.slotBoundary, 0)] := by decide +kernel

/-! ### Witnesses: headline results -/

theorem witness_RequestFramesDecode : wellFormed (.commit 7 .b [1]) = true ∧
    requestFrame (.commit 7 .b [1]) = some (7, .b, [0x5D, 0x01, 0x01, 0xA1]) := by decide

/-- FULL_SYNC with a commit pending, the cursor on row 0, and NO_OP waiting. -/
def runningState : State :=
  { cfgState .fullSync pendingCfg with smap := ⟨some 0, .replicate 6 false⟩, pending := [.noOp 5 .a []] }

theorem commitAgrees_runningState : CommitAgrees runningState where
  sync := by decide
  timing := by rintro k ⟨⟩; rfl
  cls := by rintro k ⟨⟩; decide
  checked := by decide
  normal := by decide
  inverted := by decide

theorem imageInRange_default : ImageInRange defaultImage where
  items := by
    intro k h1 h2
    have h : ∀ k ∈ List.range 34, k = 0 ∨ itemInRange k (defaultImage.item k) = true := by decide
    exact (h k (List.mem_range.mpr (by omega))).resolve_left (by omega)
  rows := by
    intro r h
    have k : ∀ r ∈ List.range 12, (defaultImage.row r).inRange = true := by decide
    exact k r (List.mem_range.mpr h)
  misfireA := by decide +kernel
  misfireB := by decide +kernel
  knockA := by decide
  knockB := by decide

theorem imagesAgree_runningState : ImagesAgree runningState where
  commit := commitAgrees_runningState
  active := imageInRange_default
  staged := imageInRange_default
  passes := by decide

theorem witness_Invariants :
    QueuesFit runningState ∧ CaptureAgrees runningState ∧ CommitAgrees runningState ∧ ImagesAgree runningState ∧
    KnockStateFits runningState ∧ GainsAgree runningState ∧ CursorAgrees runningState ∧
    (∃ u : State, step runningState = .next u ∧ u.ports.a.buffer = some ⟨.ok, []⟩) := by
  refine ⟨fun p => by cases p <;> decide, ?_, commitAgrees_runningState, imagesAgree_runningState, ?_, ?_, ?_,
    ⟨after (step runningState), rfl, by decide⟩⟩
  · exact agrees_of_checks _ (by decide) (by decide) (by decide) (by decide) (by decide) (by decide) (by decide) (by decide)
  · exact ⟨imagesAgree_runningState, fun c => by cases c <;> decide, fun c => by cases c <;> decide, fun σ => by cases σ <;> decide⟩
  · intro r h
    have k : ∀ r ∈ List.range 12, (runningState.cfg.active.row r).autoRange = false →
        (runningState.kfe.rowGain r).gain = (runningState.cfg.active.row r).initGain := by decide
    exact k r (List.mem_range.mpr h)
  · refine ⟨imagesAgree_runningState, by decide, ?_⟩
    rintro r ⟨⟩
    decide

end Sys2Proof.Tests
end

section
/-! PROOFS. The reset line and the first crank edge after it (R190, R22, R5). -/

namespace Sys2Proof.Machine

/-! ### The reset line (R190) -/

theorem exec_rstnLow (s : State) : exec .rstnLow s = .next s.hold := rfl

theorem exec_powerOn (s : State) : exec .powerOn s = .next s.hold := rfl

@[simp] theorem State.hold_running (s : State) : s.hold.running = false := rfl
@[simp] theorem State.hold_adec (s : State) : s.hold.adec = Adec.reset := rfl

/-- The part once RSTN has risen with the ALSIN pin at `alsin`. -/
def State.risen (s : State) (alsin : Bool) : State :=
  ((((s.setRunning true).setStartUp true).setTimebase 0).setOps { s.ops with alsin := alsin }).mergeOps

theorem exec_rstnRise_held {s : State} (h : s.running = false) (alsin : Bool) :
    exec (.rstnRise alsin) s = .next (s.risen alsin) := by
  show execRstnRise alsin s = _
  simp [execRstnRise, h, State.risen]

@[simp] theorem State.risen_running (s : State) (alsin : Bool) : (s.risen alsin).running = true := rfl
@[simp] theorem State.risen_startUp (s : State) (alsin : Bool) : (s.risen alsin).startUp = true := rfl
@[simp] theorem State.risen_adec (s : State) (alsin : Bool) : (s.risen alsin).adec = s.adec := rfl

/-! ### The tooth edge in HALTED (R5) -/

/-- R2: an edge of the tooth direction reaches the rule of the sync state in force; the start-up period has no part in it. -/
theorem exec_crankEdge_tooth {s : State} (h : s.running = true) {e : Edge} (he : isToothEdge s.adec.polarity e = true)
    (t : Stamp) : exec (.crankEdge t e) s = .next ((s.arrive t).crankTooth t) := by
  show execCrankEdge t e s = _
  rw [execCrankEdge, onEvent_running h]
  exact congrArg _ (if_pos he)

/-- R5: in HALTED no tooth edge is rejected. -/
theorem exec_crankEdge_halted {s : State} (h : s.running = true) {e : Edge} (he : isToothEdge s.adec.polarity e = true)
    (hs : s.adec.sync = .halted) (t : Stamp) : exec (.crankEdge t e) s = .next ((s.arrive t).crankHalted t) := by
  have rule : (s.arrive t).crankTooth t = (s.arrive t).crankHalted t := by
    rw [State.crankTooth, show (s.arrive t).adec.sync = .halted from hs]
  rw [exec_crankEdge_tooth h he, rule]

/-- R5: the edge is the first of SEEK, and restarts the stall timer. -/
theorem State.crankHalted_adec (s : State) (t : Stamp) :
    (s.crankHalted t).adec = { s.adec.enterSeek (some t) with stallRef := t } :=
  (s.changeSync_frame t _ _).2

/-! ### The decoder after reset (R22) -/

/-- R11: with no revolution time there is no speed. -/
theorem Adec.speed_of_trev_zero {a : Adec} (h : a.trev = 0) : a.rpm = 0 ∧ a.band = 0 ∧ a.overspeed = false := by
  have hr : a.rpm = 0 := by rw [Adec.rpm, rpmOf, h, Nat.div_zero]
  exact ⟨hr, by simp [Adec.band, hr], by simp [Adec.overspeed, hr]⟩

/-- R13: in HALTED the angle clock reports no angle. -/
theorem State.angleReport_halted {s : State} (h : s.adec.sync = .halted) : s.angleReport = (0, 0) := by
  rw [State.angleReport, h]

/-- R22: in the start-up period already, the first tooth edge is accepted from HALTED. -/
theorem firstEdge_accepted {s : State} (hr : s.running = false) (ha : s.adec = Adec.reset) (level : Bool) (t : Stamp) :
    ∃ v w : State, exec (.rstnRise level) s = .next v ∧ v.startUp = true ∧ exec (.crankEdge t .falling) v = .next w ∧
      w.adec.sync = .seek ∧ w.adec.seekCount = 1 ∧ w.adec.lastEdge = some t := by
  have hv : (s.risen level).adec = Adec.reset := (s.risen_adec level).trans ha
  have edge : exec (.crankEdge t .falling) (s.risen level) = .next (((s.risen level).arrive t).crankHalted t) :=
    exec_crankEdge_halted (s.risen_running level) (by rw [hv]; rfl) (by rw [hv]; rfl) t
  refine ⟨_, _, exec_rstnRise_held hr level, s.risen_startUp level, edge, ?_⟩
  rw [State.crankHalted_adec]
  exact ⟨rfl, rfl, rfl⟩

/-- Settles O2: RSTN low and power-on end in one state, whose decoder and active image are the reset values. -/
theorem decoderAfterReset : Obligations.DecoderAfterReset := by
  intro s
  refine ⟨s.hold, exec_rstnLow s, exec_powerOn s, ?_⟩
  obtain ⟨rpm, band, overspeed⟩ := Adec.speed_of_trev_zero (show s.hold.adec.trev = 0 from rfl)
  have angle : s.hold.angleReport = (0, 0) := State.angleReport_halted rfl
  have accepted := firstEdge_accepted s.hold_running s.hold_adec
  exact ⟨rfl, rfl, rfl, rfl, rfl, rfl, rfl, rfl, rfl, rfl, rfl, rpm, band, overspeed, angle,
    rfl, rfl, rfl, rfl, rfl, rfl, rfl, rfl, rfl, rfl, accepted⟩

end Sys2Proof.Machine
end

section
/-! PROOFS. RETARD_RESET (R121, R139). -/

namespace Sys2Proof.Machine

/-! ### A request at a ready port (R184, R185) -/

/-- R184, R185: the request is carried out in the state that has taken it, and its response goes to the port's buffer. -/
theorem takeRequest_ready {s : State} {p : Port} (h : s.ready p) (t : Stamp) (serve : State → State × Response) :
    takeRequest t p serve s = (serve (s.taken p t)).1.withResponse p (serve (s.taken p t)).2 := by
  obtain ⟨running, serving⟩ := h
  exact takeRequest_serving running serving t serve

/-- A request refused in the state that has taken it is answered there, and nothing else changes. -/
theorem takeRequest_refused {s : State} {p : Port} (h : s.ready p) {t : Stamp} {serve : State → State × Response}
    {c : ResultCode} (hr : serve (s.taken p t) = refuse c (s.taken p t)) :
    takeRequest t p serve s = s.answered p t ⟨c, []⟩ := by
  rw [takeRequest_ready h, hr]
  rfl

/-! ### The two stores (R121, R139) -/

/-- R121: a cylinder's bit of a mask byte. -/
theorem testBit_cylBit (m : Byte) (c : Cyl) : m.toNat.testBit (cylBit c) = m.getLsbD (cylNumber c - 1) :=
  BitVec.testBit_toNat m

/-- R121: the mask's cylinders have retard and recovery count 0, the others stay. -/
theorem Kna.resetRetard_cyl (k : Kna) (m : Byte) (c : Cyl) :
    (k.resetRetard m.toNat).cyl.get c =
      if m.getLsbD (cylNumber c - 1) then { k.cyl.get c with retard := 0, recovery := 0 } else k.cyl.get c := by
  rw [Kna.resetRetard, PerCyl.get_mapWith, testBit_cylBit]

/-- R121, R139: the published entries follow. -/
theorem Cyt.resetRetard_entry (y : Cyt) (m : Byte) (c : Cyl) :
    (y.resetRetard m.toNat).entry.get c =
      if m.getLsbD (cylNumber c - 1) then { y.entry.get c with retard := 0, recovery := 0 } else y.entry.get c := by
  rw [Cyt.resetRetard, PerCyl.get_mapWith, testBit_cylBit]
  rfl

/-! ### The command (R121) -/

theorem serveRetardReset_badMask {m : Byte} (h : m = 0 ∨ 63 < m.toNat) (s : State) :
    serveRetardReset [m] s = refuse .badValue s :=
  if_pos (h.imp_left fun h0 => congrArg BitVec.toNat h0)

theorem serveRetardReset_mask {m : Byte} (h0 : m ≠ 0) (h63 : m.toNat ≤ 63) (s : State) :
    serveRetardReset [m] s =
      ({ s with kna := s.kna.resetRetard m.toNat, cyt := s.cyt.resetRetard m.toNat },
        ⟨.ok, s.kna.cyl.toList.map fun c => BitVec.ofNat 8 c.retard⟩) := by
  have valid : ¬ (m.toNat = 0 ∨ 63 < m.toNat) := by
    rintro (h | h)
    · exact h0 (BitVec.eq_of_toNat_eq h)
    · omega
  exact if_neg valid

theorem exec_retardReset_wrongLength {s : State} {p : Port} (h : s.ready p) {pl : List Byte} (hn : pl.length ≠ 1)
    (hl : pl.length ≤ 250) (t : Stamp) : exec (.retardReset t p pl) s = .next (s.answered p t ⟨.badLength, []⟩) :=
  congrArg Host.Outcome.next (takeRequest_refused h (congrFun (ofLength_wrong hn hl _) _))

/-- A payload of one byte passes the length test. -/
theorem exec_retardReset_byte (t : Stamp) (p : Port) (m : Byte) (s : State) :
    exec (.retardReset t p [m]) s = .next (takeRequest t p (serveRetardReset [m]) s) := by
  show execRetardReset t p [m] s = _
  rw [execRetardReset, ofLength_exact (n := 1) rfl (by decide)]

theorem exec_retardReset_badMask {s : State} {p : Port} (h : s.ready p) {m : Byte} (hm : m = 0 ∨ 63 < m.toNat) (t : Stamp) :
    exec (.retardReset t p [m]) s = .next (s.answered p t ⟨.badValue, []⟩) := by
  rw [exec_retardReset_byte, takeRequest_refused h (serveRetardReset_badMask hm _)]

/-- R121: an accepted RETARD_RESET writes KNA's cylinders and the published entries, and answers the retards as they stood. -/
theorem exec_retardReset_mask {s : State} {p : Port} (h : s.ready p) {m : Byte} (h0 : m ≠ 0) (h63 : m.toNat ≤ 63)
    (t : Stamp) : exec (.retardReset t p [m]) s =
      .next { s.answered p t ⟨.ok, s.kna.cyl.toList.map fun c => BitVec.ofNat 8 c.retard⟩ with
              kna := s.kna.resetRetard m.toNat, cyt := s.cyt.resetRetard m.toNat } := by
  rw [exec_retardReset_byte, takeRequest_ready h, serveRetardReset_mask h0 h63]
  rfl

/-- Settles O32: the two refusals, and the accepted command's one state, read cylinder by cylinder. -/
theorem retardReset : Obligations.RetardReset := by
  intro t p m s ready
  refine ⟨fun pl hn hl => exec_retardReset_wrongLength ready hn hl t, fun hm => exec_retardReset_badMask ready hm t,
    fun h0 h63 => ⟨_, exec_retardReset_mask ready h0 h63 t, rfl, fun c => ⟨fun named => ?_, fun unnamed => ?_⟩⟩⟩
  · simp only [Kna.resetRetard_cyl, Cyt.resetRetard_entry, named, if_true, and_self]
  · simp only [Kna.resetRetard_cyl, Cyt.resetRetard_entry, unnamed, Bool.false_eq_true, if_false, and_self]

end Sys2Proof.Machine
end

section
/-! PROOFS. CLEAR_QUEUE and the attention output (R151, R153, R154, R188). -/

namespace Sys2Proof.Machine

/-! ### A request that acts on its own port alone (R184, R185) -/

@[simp] theorem State.port_taken (s : State) (p : Port) (t : Stamp) :
    (s.taken p t).port p = { s.port p with selection := .idle, dataOut := none, busy := true, busySince := t } :=
  PerPort.get_set_same _ _ _

/-- A request that leaves its port as `y` and is answered `r`: the port holds both, and the time is the only other change. -/
theorem takeRequest_ownPort {s : State} {p : Port} (h : s.ready p) {t : Stamp} {serve : State → State × Response}
    {y : PortState} {r : Response} (hs : serve (s.taken p t) = ((s.taken p t).setPort p y, r)) :
    takeRequest t p serve s = { s with timebase := t, ports := s.ports.set p { y with buffer := some r } } := by
  rw [takeRequest_ready h, hs]
  simp [State.withResponse, State.setPort_eq, State.taken]

/-! ### CLEAR_QUEUE (R151) -/

/-- R151: the port with its queue, dropped count, subscription and QUEUE_OVERFLOW alert cleared. -/
def PortState.clearQueue (x : PortState) : PortState :=
  { x with queue := [], dropped := 0, subscription := 0, alerts := x.alerts &&& 30#5 }

/-- Steps 1 to 5 of R151: the answer is formed from the port as it stood before the clear. -/
theorem serveClearQueue_eq (p : Port) (s : State) :
    serveClearQueue p s = (s.setPort p (s.port p).clearQueue,
      ⟨.ok, [BitVec.ofNat 8 (s.port p).queue.length, BitVec.ofNat 8 ((s.port p).dropped / 256),
        BitVec.ofNat 8 (s.port p).dropped]⟩) := by
  simp [serveClearQueue, PortState.clearQueue, beBytes, okWith, byte, PortState.clearAlerts, alertBit, alertOverflow]

/-- R145: a port subscribed to no kind takes no record. -/
theorem offered_noSubscription {x : PortState} (h : x.subscription = 0) (r : Record) : offered r x = x := by
  rw [← PortState.offer_eq]
  exact PortState.offer_unsubscribed (by simp [h])

theorem exec_clearQueue_wrongLength {s : State} {p : Port} (h : s.ready p) {pl : List Byte} (hn : pl ≠ [])
    (hl : pl.length ≤ 250) (t : Stamp) : exec (.clearQueue t p pl) s = .next (s.answered p t ⟨.badLength, []⟩) :=
  have notEmpty : pl.length ≠ 0 := mt List.eq_nil_of_length_eq_zero hn
  congrArg Host.Outcome.next (takeRequest_refused h (congrFun (ofLength_wrong notEmpty hl _) _))

/-- An empty payload passes the length test. -/
theorem exec_clearQueue_empty (t : Stamp) (p : Port) (s : State) :
    exec (.clearQueue t p []) s = .next (takeRequest t p (serveClearQueue p) s) := by
  show execClearQueue t p [] s = _
  rw [execClearQueue, ofLength_exact (n := 0) rfl (by decide)]

/-- Settles O40: the cleared port is the one change, its subscription of no kind takes no record, and a payload is refused. -/
theorem clearQueue : Obligations.ClearQueue := by
  intro t p s ready
  refine ⟨?_, offered_noSubscription rfl, fun pl hn hl => exec_clearQueue_wrongLength ready hn hl t⟩
  have served := serveClearQueue_eq p (s.taken p t)
  rw [State.port_taken] at served
  rw [exec_clearQueue_empty, takeRequest_ownPort ready served]
  rfl

/-! ### The attention output (R153, R154) -/

/-- Two words share a set bit exactly when their conjunction is not 0. -/
theorem bitVec_and_ne_zero_iff {w : Nat} (a b : BitVec w) :
    a &&& b ≠ 0 ↔ ∃ i : Nat, i < w ∧ a.getLsbD i = true ∧ b.getLsbD i = true := by
  constructor
  · contrapose!
    intro apart
    refine BitVec.eq_of_getLsbD_eq fun i hi => ?_
    simpa using apart i hi
  · rintro ⟨i, -, ha, hb⟩ zero
    simpa [ha, hb] using congrArg (·.getLsbD i) zero

/-- R154: the queue at its watermark, or a flag that the mask selects. -/
theorem PortState.attention_iff (x : PortState) : x.attention = true ↔
    (0 < x.watermark ∧ x.watermark ≤ x.queue.length) ∨
      ∃ i : Nat, i < 5 ∧ x.alerts.getLsbD i = true ∧ x.alertMask.getLsbD i = true := by
  rw [← bitVec_and_ne_zero_iff]
  simp [PortState.attention]

/-- R154: the output is at "L" exactly while attention is asserted. -/
theorem PortState.attentionOut_low_iff (x : PortState) : x.attentionOut = false ↔ x.attention = true := by
  simp [PortState.attentionOut]

/-- R153: with a watermark of 0 and no flag selected by the mask the output is at "H", whatever the flags. -/
theorem PortState.attentionOut_unmasked {x : PortState} (hw : x.watermark = 0) (hm : x.alertMask = 0) :
    x.attentionOut = true := by
  simp [PortState.attentionOut, PortState.attention, hw, hm]

/-- The mask with bit `i` added selects flag `i`. -/
theorem getLsbD_or_twoPow (m : BitVec 5) {i : Nat} (h : i < 5) : (m ||| BitVec.ofNat 5 (2 ^ i)).getLsbD i = true := by
  rw [BitVec.getLsbD_or, BitVec.getLsbD_ofNat, Nat.testBit_two_pow_self]
  simp [h]

/-- R153: a set flag asserts attention once the mask selects it. -/
theorem PortState.attentionOut_selected {x : PortState} {i : Nat} (hi : i < 5) (hx : x.alerts.getLsbD i = true) :
    { x with alertMask := x.alertMask ||| BitVec.ofNat 5 (2 ^ i) }.attentionOut = false :=
  (attentionOut_low_iff _).mpr ((attention_iff _).mpr (.inr ⟨i, hi, hx, getLsbD_or_twoPow _ hi⟩))

/-! ### SET_ALERT_MASK (R188) -/

/-- R188: a byte with bits 5 to 7 clear names a set of flags. -/
theorem alertBits_toNat {m : Byte} (h : m.toNat < 32) : alertBits m.toNat = some (m.setWidth 5) := by
  rw [alertBits, if_pos h, BitVec.ofNat_toNat]

theorem serveSetAlertMask_mask {m : Byte} (h : m.toNat < 32) (p : Port) (s : State) :
    serveSetAlertMask p [m] s =
      (s.setPort p { s.port p with alertMask := m.setWidth 5 }, okWith [byte (s.port p).alerts.toNat]) := by
  rw [serveSetAlertMask, show alertBits (u8 [m] 0) = some (m.setWidth 5) from alertBits_toNat h]

/-- R188: an accepted SET_ALERT_MASK writes its port's mask and answers the flags. -/
theorem exec_setAlertMask_mask {s : State} {p : Port} (h : s.ready p) {m : Byte} (hm : m.toNat < 32) (t : Stamp) :
    exec (.setAlertMask t p [m]) s = .next { s with
      timebase := t
      ports := s.ports.set p
        { s.ports.get p with
          selection := .idle, dataOut := none, busy := true, busySince := t, alertMask := m.setWidth 5
          buffer := some ⟨.ok, [BitVec.ofNat 8 (s.ports.get p).alerts.toNat]⟩ } } := by
  have served := serveSetAlertMask_mask hm p (s.taken p t)
  rw [State.port_taken] at served
  show execSetAlertMask t p [m] s = _
  rw [execSetAlertMask, ofLength_exact (n := 1) rfl (by decide), takeRequest_ownPort h served]
  rfl

/-- Settles O42: the level as the equivalence of R154, its two readings by the mask, and the command that writes the mask. -/
theorem attention : Obligations.Attention :=
  ⟨fun x => x.attentionOut_low_iff.trans x.attention_iff, fun _ => PortState.attentionOut_unmasked,
    fun _ _ => PortState.attentionOut_selected, fun t p _ s ready hm =>
      ⟨_, exec_setAlertMask_mask ready hm t, congrArg PortState.alertMask (PerPort.get_set_same s.ports p _)⟩⟩

end Sys2Proof.Machine
end

section
/-! PROOFS. DISCARD (R179). -/

namespace Sys2Proof.Machine

/-- R179: DISCARD's answer is 1 when it cancels a pending commit, else 0. -/
theorem okWith_cancelled (k : Option PendingCommit) :
    okWith [byte k.isSome.toNat] = ⟨.ok, [if k = none then 0 else 1]⟩ := by
  cases k with
  | none => rfl
  | some _ => rfl

/-- R182: an apply taken first leaves DISCARD nothing to cancel. -/
@[simp] theorem Cfg.apply_pendingCommit (c : Cfg) : c.apply.pendingCommit = none := rfl

/-- R182: an apply makes the staged image the active one. -/
@[simp] theorem Cfg.apply_staged (c : Cfg) : c.apply.staged = c.apply.active := rfl

theorem exec_discard_wrongLength {s : State} {p : Port} (h : s.ready p) {pl : List Byte} (hn : pl ≠ [])
    (hl : pl.length ≤ 250) (t : Stamp) : exec (.discard t p pl) s = .next (s.answered p t ⟨.badLength, []⟩) :=
  have notEmpty : pl.length ≠ 0 := mt List.eq_nil_of_length_eq_zero hn
  congrArg Host.Outcome.next (takeRequest_refused h (congrFun (ofLength_wrong notEmpty hl _) _))

/-- R179: an accepted DISCARD writes the configuration stage and its port's answer, formed from the commit that was pending. -/
theorem exec_discard_empty {s : State} {p : Port} (h : s.ready p) (t : Stamp) :
    exec (.discard t p []) s =
      .next { s.answered p t ⟨.ok, [if s.cfg.pendingCommit = none then 0 else 1]⟩ with cfg := s.cfg.discard } := by
  show execDiscard t p [] s = _
  rw [execDiscard, ofLength_exact (n := 0) rfl (by decide), takeRequest_ready h, ← okWith_cancelled]
  rfl

/-- Settles O50: the refused payload, the accepted command's one state, and the stage an apply leaves. -/
theorem discard : Obligations.Discard := fun t _ s ready =>
  ⟨fun _ hn hl => exec_discard_wrongLength ready hn hl t, exec_discard_empty ready t,
    s.cfg.apply_pendingCommit, s.cfg.apply_staged⟩

end Sys2Proof.Machine
end

section
/-! PROOFS. SET_ALERT_MASK and CLEAR_ALERTS (R188). -/

namespace Sys2Proof.Machine

/-! ### The commands at a payload of one byte -/

/-- A payload of one byte passes SET_ALERT_MASK's length test. -/
theorem exec_setAlertMask_byte (t : Stamp) (p : Port) (m : Byte) (s : State) :
    exec (.setAlertMask t p [m]) s = .next (takeRequest t p (serveSetAlertMask p [m]) s) := by
  show execSetAlertMask t p [m] s = _
  rw [execSetAlertMask, ofLength_exact (n := 1) rfl (by decide)]

/-- A payload of one byte passes CLEAR_ALERTS's length test. -/
theorem exec_clearAlerts_byte (t : Stamp) (p : Port) (m : Byte) (s : State) :
    exec (.clearAlerts t p [m]) s = .next (takeRequest t p (serveClearAlerts p [m]) s) := by
  show execClearAlerts t p [m] s = _
  rw [execClearAlerts, ofLength_exact (n := 1) rfl (by decide)]

/-- R188: an accepted CLEAR_ALERTS writes its port's flags and answers them as they stood and as they are left. -/
theorem serveClearAlerts_mask {m : Byte} (h : m.toNat < 32) (p : Port) (s : State) :
    serveClearAlerts p [m] s =
      (s.setPort p { s.port p with alerts := (s.port p).alerts &&& ~~~(m.setWidth 5) },
        ⟨.ok, [(s.port p).alerts.setWidth 8, ((s.port p).alerts &&& ~~~(m.setWidth 5)).setWidth 8]⟩) := by
  rw [serveClearAlerts, show alertBits (u8 [m] 0) = some (m.setWidth 5) from alertBits_toNat h,
    ← BitVec.ofNat_toNat 8 (s.port p).alerts, ← BitVec.ofNat_toNat 8 ((s.port p).alerts &&& ~~~(m.setWidth 5))]
  rfl

theorem exec_clearAlerts_mask {s : State} {p : Port} (h : s.ready p) {m : Byte} (hm : m.toNat < 32) (t : Stamp) :
    exec (.clearAlerts t p [m]) s = .next { s with
      timebase := t
      ports := s.ports.set p
        { s.ports.get p with
          selection := .idle, dataOut := none, busy := true, busySince := t
          alerts := (s.ports.get p).alerts &&& ~~~(m.setWidth 5)
          buffer := some ⟨.ok, [(s.ports.get p).alerts.setWidth 8,
            ((s.ports.get p).alerts &&& ~~~(m.setWidth 5)).setWidth 8]⟩ } } := by
  have served := serveClearAlerts_mask hm p (s.taken p t)
  rw [State.port_taken] at served
  rw [exec_clearAlerts_byte, takeRequest_ownPort h served]
  rfl

/-! ### The refusals -/

/-- R188: a byte with one of bits 5 to 7 set names no set of flags. -/
theorem alertBits_high {m : Byte} (h : 32 ≤ m.toNat) : alertBits m.toNat = none :=
  if_neg (Nat.not_lt.mpr h)

theorem serveSetAlertMask_high {m : Byte} (h : 32 ≤ m.toNat) (p : Port) (s : State) :
    serveSetAlertMask p [m] s = refuse .badValue s := by
  rw [serveSetAlertMask, show alertBits (u8 [m] 0) = none from alertBits_high h]

theorem serveClearAlerts_high {m : Byte} (h : 32 ≤ m.toNat) (p : Port) (s : State) :
    serveClearAlerts p [m] s = refuse .badValue s := by
  rw [serveClearAlerts, show alertBits (u8 [m] 0) = none from alertBits_high h]

theorem exec_setAlertMask_high {s : State} {p : Port} (h : s.ready p) {m : Byte} (hm : 32 ≤ m.toNat) (t : Stamp) :
    exec (.setAlertMask t p [m]) s = .next (s.answered p t ⟨.badValue, []⟩) := by
  rw [exec_setAlertMask_byte, takeRequest_refused h (serveSetAlertMask_high hm p _)]

theorem exec_clearAlerts_high {s : State} {p : Port} (h : s.ready p) {m : Byte} (hm : 32 ≤ m.toNat) (t : Stamp) :
    exec (.clearAlerts t p [m]) s = .next (s.answered p t ⟨.badValue, []⟩) := by
  rw [exec_clearAlerts_byte, takeRequest_refused h (serveClearAlerts_high hm p _)]

theorem exec_setAlertMask_wrongLength {s : State} {p : Port} (h : s.ready p) {pl : List Byte} (hn : pl.length ≠ 1)
    (hl : pl.length ≤ 250) (t : Stamp) : exec (.setAlertMask t p pl) s = .next (s.answered p t ⟨.badLength, []⟩) :=
  congrArg Host.Outcome.next (takeRequest_refused h (congrFun (ofLength_wrong hn hl _) _))

theorem exec_clearAlerts_wrongLength {s : State} {p : Port} (h : s.ready p) {pl : List Byte} (hn : pl.length ≠ 1)
    (hl : pl.length ≤ 250) (t : Stamp) : exec (.clearAlerts t p pl) s = .next (s.answered p t ⟨.badLength, []⟩) :=
  congrArg Host.Outcome.next (takeRequest_refused h (congrFun (ofLength_wrong hn hl _) _))

/-- Settles O41: each command's one state at its own port, the two refusals, and attention as R154's equivalence. -/
theorem alertCommands : Obligations.AlertCommands := by
  intro t p s ready
  refine ⟨fun m hm => ?_, fun m hm => exec_clearAlerts_mask ready hm t,
    fun m hm => ⟨exec_setAlertMask_high ready hm t, exec_clearAlerts_high ready hm t⟩,
    fun pl hn hl => ⟨exec_setAlertMask_wrongLength ready hn hl t, exec_clearAlerts_wrongLength ready hn hl t⟩,
    PortState.attention_iff⟩
  rw [exec_setAlertMask_mask ready hm, BitVec.ofNat_toNat]

end Sys2Proof.Machine
end

section
/-! PROOFS. What keeps the record queues within 128 records (R146) and the capture unit in agreement with its request list (R156
to R162): the operations on ports and capture unit, one lemma each. -/

namespace Sys2Proof.Machine

/-! ### The two invariants that every operation must keep for itself -/

/-- A change that keeps the record queues within bounds and the capture unit in agreement with its requests. -/
structure Fits (s u : State) : Prop where
  queues : QueuesFit s → QueuesFit u
  capture : CaptureAgrees s → CaptureAgrees u

variable {s u w : State}

theorem Fits.refl (s : State) : Fits s s := ⟨id, id⟩

theorem Fits.trans (h : Fits s u) (k : Fits u w) : Fits s w := ⟨k.queues ∘ h.queues, k.capture ∘ h.capture⟩

theorem QueuesFit.congr (h : QueuesFit s) (e : u.ports = s.ports) : QueuesFit u := fun p => by rw [e]; exact h p

theorem CaptureAgrees.congr (h : CaptureAgrees s) (e : u.cap = s.cap) : CaptureAgrees u := by
  obtain ⟨fits, next, distinct, range, latches, waits, free, named, active, granted⟩ := h
  rw [← e] at next distinct range latches waits free named active granted
  exact ⟨by rw [CaptureFits, e]; exact fits, next, distinct, range, latches, waits, free, named, active, granted⟩

/-- A change that leaves ports and capture unit alone. -/
theorem Fits.of_eq (ports : u.ports = s.ports) (cap : u.cap = s.cap) : Fits s u :=
  ⟨fun h => h.congr ports, fun h => h.congr cap⟩

/-! ### Records and alerts (R145, R146, R153) -/

theorem QueuesFit.setPort (h : QueuesFit s) {p : Port} {x : PortState} (hx : x.queue.length ≤ 128) :
    QueuesFit (s.setPort p x) := by
  intro q
  show ((s.ports.set p x).get q).queue.length ≤ 128
  rw [PerPort.get_set]
  split
  · exact hx
  · exact h q

theorem State.setPort_fits {p : Port} {x : PortState} (hx : (s.ports.get p).queue.length ≤ 128 → x.queue.length ≤ 128) :
    Fits s (s.setPort p x) :=
  ⟨fun h => h.setPort (hx (h p)), fun h => h.congr rfl⟩

/-- A port's own fields other than its queue. -/
theorem State.setPort_fits_sameQueue {p : Port} {x : PortState} (hx : x.queue = (s.ports.get p).queue) :
    Fits s (s.setPort p x) := State.setPort_fits fun h => by rw [hx]; exact h

theorem State.emit_fits (s : State) (r : Record) : Fits s (s.emit r) where
  queues h p := by
    show ((s.ports.map (PortState.offer r)).get p).queue.length ≤ 128
    rw [PerPort.get_map]
    exact PortState.offer_queue_le r (h p)
  capture h := h.congr rfl

theorem State.alertAll_fits (s : State) (b : Nat) : Fits s (s.alertAll b) where
  queues h p := by
    show ((s.ports.map (PortState.raiseAlert b)).get p).queue.length ≤ 128
    rw [PerPort.get_map]
    exact h p
  capture h := h.congr rfl

theorem State.emitTo_fits (s : State) (p : Port) (r : Record) : Fits s (s.emitTo p r) :=
  State.setPort_fits fun h => PortState.offer_queue_le r h

theorem State.alertOn_fits (s : State) (p : Port) (b : Nat) : Fits s (s.alertOn p b) :=
  State.setPort_fits_sameQueue rfl

theorem State.emitSync_fits (s : State) (t : Stamp) (c : SyncCause) : Fits s (s.emitSync t c) :=
  (s.emit_fits _).trans (State.alertAll_fits _ _)

theorem State.emitFor_fits (s : State) (t : Stamp) (c : Cyl) (n : Half) (b : Option RecordBody) :
    Fits s (s.emitFor t c n b) := by
  cases b with
  | none => exact .refl s
  | some b => exact s.emit_fits _

theorem State.emitCapture_fits (s : State) (t : Stamp) (r : Request) (o : CapOutcome) : Fits s (s.emitCapture t r o) :=
  (s.emitTo_fits _ _).trans (State.alertOn_fits _ _ _)

/-! ### Filling: the request list and the ACTIVE request stand (R163 to R166) -/

/-- A change of the capture unit that only fills or holds the memory: the requests stand, and the unit is FREE as before. -/
structure Refills (c d : Cap) : Prop where
  requests : d.requests = c.requests
  active : d.active = c.active
  next : d.nextHandle = c.nextHandle
  free : d.unit = .free ↔ c.unit = .free
  mem : c.mem.wf = true → d.mem.wf = true

variable {c d e : Cap}

theorem Refills.refl (c : Cap) : Refills c c := ⟨rfl, rfl, rfl, .rfl, id⟩

theorem Refills.trans (h : Refills c d) (k : Refills d e) : Refills c e :=
  ⟨k.requests.trans h.requests, k.active.trans h.active, k.next.trans h.next, k.free.trans h.free, k.mem ∘ h.mem⟩

theorem CaptureAgrees.refill (h : CaptureAgrees s) (k : Refills s.cap u.cap) : CaptureAgrees u := by
  obtain ⟨⟨mem, six, two⟩, next, distinct, range, latches, waits, free, named, active, granted⟩ := h
  obtain ⟨requests, act, nxt, fre, wf⟩ := k
  rw [← requests] at six two distinct range latches waits named active granted
  rw [← act] at free named active
  rw [← nxt] at next
  rw [← fre] at free granted
  exact ⟨⟨wf mem, six, two⟩, next, distinct, range, latches, waits, free, named, active, granted⟩

/-- A change of a state in which the capture unit fills or ends its filling, and only ports change beside it. -/
structure Filled (s u : State) : Prop where
  queues : QueuesFit s → QueuesFit u
  refills : Refills s.cap u.cap

theorem Filled.refl (s : State) : Filled s s := ⟨id, .refl _⟩

theorem Filled.trans (h : Filled s u) (k : Filled u w) : Filled s w := ⟨k.queues ∘ h.queues, h.refills.trans k.refills⟩

theorem Filled.fits (h : Filled s u) : Fits s u := ⟨h.queues, fun k => k.refill h.refills⟩

theorem State.modCap_filled {f : Cap → Cap} (h : Refills s.cap (f s.cap)) : Filled s (s.modCap f) :=
  ⟨fun q => q.congr rfl, h⟩

theorem State.endFilling_filled (h : s.cap.unit ≠ .free) (t : Stamp) (o : CapOutcome) : Filled s (s.endFilling t o) := by
  unfold State.endFilling
  split
  · exact .refl s
  · refine ⟨fun q => (State.emitCapture_fits _ _ _ _).queues (q.congr rfl), ?_⟩
    rw [State.emitCapture_cap]
    exact ⟨rfl, rfl, rfl, by simp [h], id⟩

theorem Cap.closeWindow_refills (c : Cap) (w : CapWindow) (m : Half) : Refills c (c.closeWindow w m) :=
  ⟨rfl, rfl, rfl, .rfl, fun h => Cap.closeWindow_wf h w m⟩

theorem State.closeWindow_filled (s : State) (w : CapWindow) (m : Half) : Filled s (s.modCap fun c => c.closeWindow w m) :=
  State.modCap_filled (s.cap.closeWindow_refills w m)

/-- The end of filling behind the close of the window being recorded. -/
theorem State.closeEnd_filled (h : s.cap.unit ≠ .free) (t : Stamp) (o : CapOutcome) (w : CapWindow) (m : Half) :
    Filled s ((s.modCap fun c => c.closeWindow w m).endFilling t o) :=
  (s.closeWindow_filled w m).trans (State.endFilling_filled (by exact h) t o)

theorem State.readyAtCount_filled (h : s.cap.unit ≠ .free) (t : Stamp) (n : Nat) : Filled s (s.readyAtCount t n) := by
  unfold State.readyAtCount
  split
  · exact State.endFilling_filled h t _
  · exact .refl s

/-- The close of the window being recorded, and the end of a capture that has thereby reached its count. -/
theorem State.closeReady_filled (h : s.cap.unit ≠ .free) (t : Stamp) (n : Nat) (w : CapWindow) (m : Half) :
    Filled s ((s.modCap fun c => c.closeWindow w m).readyAtCount t n) :=
  (s.closeWindow_filled w m).trans (State.readyAtCount_filled (by exact h) t n)

theorem Cap.inUse_of_filling (h : c.unit = .filling) : c.unit ≠ .free := by rw [h]; decide

theorem Cap.inUse_of_fillingAs {k : CapKind} {r : Request} (h : c.fillingAs k = some r) : c.unit ≠ .free :=
  c.inUse_of_filling (Cap.fillingAs_some h).1

theorem Cap.inUse_of_recordingOn {σ : Sensor} {x : Request × CapWindow} (h : c.recordingOn σ = some x) : c.unit ≠ .free :=
  c.inUse_of_filling (Cap.recordingOn_filling h)

theorem State.noticeOpen_fits (s : State) (t : Stamp) (σ : Sensor) (c : Cyl) (n : Half) (g : Gain) :
    Fits s (s.noticeOpen t σ c n g) := by
  unfold State.noticeOpen
  split
  · exact .refl s
  next r hr =>
    split
    · split
      · exact (State.endFilling_filled (Cap.inUse_of_fillingAs hr) t _).fits
      · next room => exact (State.modCap_filled ⟨rfl, rfl, rfl, .rfl, fun _ => Memory.wf_header (Nat.not_lt.mp room) _ _ _ _⟩).fits
    · exact .refl s

theorem State.noticeSample_fits (s : State) (t : Stamp) (σ : Sensor) (x : Half) : Fits s (s.noticeSample t σ x) := by
  unfold State.noticeSample
  split
  · exact .refl s
  next r w hr =>
    split
    · exact (State.modCap_filled ⟨rfl, rfl, rfl, .rfl, fun h => Memory.wf_patch (Memory.wf_push h x) _ _⟩).fits
    · exact (State.closeEnd_filled (Cap.inUse_of_recordingOn hr) t _ w _).fits

theorem State.noticeClose_fits (s : State) (t : Stamp) (σ : Sensor) (a b : Bool) : Fits s (s.noticeClose t σ a b) := by
  unfold State.noticeClose
  split
  · exact .refl s
  next r w hr => exact (State.closeReady_filled (Cap.inUse_of_recordingOn hr) t _ w _).fits

theorem State.noticeAbandon_fits (s : State) (t : Stamp) (σ : Sensor) (b : Bool) : Fits s (s.noticeAbandon t σ b) := by
  unfold State.noticeAbandon
  split
  · exact .refl s
  next r w hr =>
    dsimp only
    split
    · exact (State.closeReady_filled (Cap.inUse_of_recordingOn hr) t _ w _).fits
    · exact (s.closeWindow_filled w _).fits

theorem State.capSyncLoss_fits (s : State) (t : Stamp) : Fits s (s.capSyncLoss t) := by
  unfold State.capSyncLoss
  split
  · exact .refl s
  next r hr =>
    split
    · exact .refl s
    · split
      · exact (State.closeEnd_filled (Cap.inUse_of_fillingAs hr) t _ _ _).fits
      · exact (State.endFilling_filled (Cap.inUse_of_fillingAs hr) t _).fits

theorem State.capCrankLoss_fits (s : State) (t : Stamp) : Fits s (s.capCrankLoss t) := by
  unfold State.capCrankLoss
  split
  · exact .refl s
  next r hr =>
    split
    · exact (State.endFilling_filled (Cap.inUse_of_fillingAs hr) t _).fits
    · exact .refl s

theorem State.noticePeriod_fits (s : State) (n : Nat) : Fits s (s.noticePeriod n) := by
  unfold State.noticePeriod
  split
  · exact .refl s
  · split
    · exact (State.modCap_filled ⟨rfl, rfl, rfl, .rfl, fun h => Memory.wf_push h _⟩).fits
    · exact .refl s

theorem State.noticeGapEnd_fits (s : State) (t : Stamp) : Fits s (s.noticeGapEnd t) := by
  unfold State.noticeGapEnd
  split
  · exact .refl s
  next r hr =>
    split
    · have counted : Filled s (s.modCap fun c => { c with recorded := c.recorded + 1 }) :=
        State.modCap_filled ⟨rfl, rfl, rfl, .rfl, id⟩
      exact (counted.trans (State.readyAtCount_filled (by exact Cap.inUse_of_fillingAs hr) t _)).fits
    · exact (State.modCap_filled ⟨rfl, rfl, rfl, .rfl, id⟩).fits

theorem State.capRunList_fits (s : State) (t : Stamp) : Fits s (s.capRunList t) := by
  unfold State.capRunList
  split
  · exact .refl s
  next r hr =>
    split
    · exact .refl s
    · split
      · exact (State.closeEnd_filled (Cap.inUse_of_fillingAs hr) t _ _ _).fits
      · exact (State.endFilling_filled (Cap.inUse_of_fillingAs hr) t _).fits

/-! ### The request list and the grant (R156 to R162) -/

/-- What the request list has of itself: its limits, distinct handles in their range, latches among the named conditions, and WAITING
exactly until all of them are latched (R157, R159, R160). -/
structure RequestsFit (l : List Request) : Prop where
  six : l.length ≤ 6
  two : ∀ p : Port, (l.filter fun r => decide (r.port = p)).length ≤ 2
  distinct : (l.map (·.handle)).Nodup
  range : ∀ r ∈ l, 1 ≤ r.handle ∧ r.handle ≤ 255
  latches : ∀ r ∈ l, r.latched &&& r.named = r.latched
  waits : ∀ r ∈ l, r.state = .waiting ↔ r.latched ≠ r.named

/-- The agreement of unit and requests without its last clause: requests may be TRIGGERED while the unit is FREE, as they are
between an event and the grant that follows it (R162). -/
structure Cap.Listed (c : Cap) : Prop where
  mem : c.mem.wf = true
  next : 1 ≤ c.nextHandle ∧ c.nextHandle ≤ 255
  list : RequestsFit c.requests
  free : c.unit = .free ↔ c.active = none
  named : ∀ h, c.active = some h → ∃ r ∈ c.requests, r.handle = h ∧ r.state = .active
  active : ∀ r ∈ c.requests, r.state = .active → c.active = some r.handle

theorem CaptureAgrees.listed (h : CaptureAgrees s) : s.cap.Listed :=
  ⟨h.fits.1, h.next, ⟨h.fits.2.1, h.fits.2.2, h.distinct, h.range, h.latches, h.waits⟩, h.free, h.named, h.active⟩

theorem Cap.Listed.agrees (h : s.cap.Listed) (granted : s.cap.unit = .free → ∀ r ∈ s.cap.requests, r.state ≠ .triggered) :
    CaptureAgrees s := by
  obtain ⟨six, two, distinct, range, latches, waits⟩ := h.list
  exact ⟨⟨h.mem, six, two⟩, h.next, distinct, range, latches, waits, h.free, h.named, h.active, granted⟩

/-- While the unit is FREE no request is ACTIVE (R156). -/
theorem Cap.Listed.idle (h : c.Listed) (hf : c.unit = .free) : ∀ r ∈ c.requests, r.state ≠ .active := fun r hr ha => by
  have e := h.active r hr ha
  rw [h.free.mp hf] at e
  cases e

/-- A change of requests in their places that keeps handle and port. -/
theorem RequestsFit.map {l : List Request} (h : RequestsFit l) {f : Request → Request} (handle : ∀ r, (f r).handle = r.handle)
    (port : ∀ r, (f r).port = r.port)
    (latches : ∀ r ∈ l, (f r).latched &&& (f r).named = (f r).latched)
    (waits : ∀ r ∈ l, (f r).state = .waiting ↔ (f r).latched ≠ (f r).named) : RequestsFit (l.map f) where
  six := by rw [List.length_map]; exact h.six
  two p := by
    rw [List.filter_map, List.length_map]
    simpa only [Function.comp_def, port] using h.two p
  distinct := by simpa only [List.map_map, Function.comp_def, handle] using h.distinct
  range := by
    rintro _ hq
    obtain ⟨r, hr, rfl⟩ := List.mem_map.mp hq
    rw [handle]
    exact h.range r hr
  latches := by
    rintro _ hq
    obtain ⟨r, hr, rfl⟩ := List.mem_map.mp hq
    exact latches r hr
  waits := by
    rintro _ hq
    obtain ⟨r, hr, rfl⟩ := List.mem_map.mp hq
    exact waits r hr

/-- R157: some requests leave the list; the others keep their order. -/
theorem RequestsFit.filter {l : List Request} (h : RequestsFit l) (keep : Request → Bool) : RequestsFit (l.filter keep) where
  six := (List.length_filter_le _ _).trans h.six
  two p := ((List.filter_sublist (p := keep)).filter _).length_le.trans (h.two p)
  distinct := ((List.filter_sublist (p := keep) (l := l)).map (·.handle)).nodup h.distinct
  range r hr := h.range r (List.mem_of_mem_filter hr)
  latches r hr := h.latches r (List.mem_of_mem_filter hr)
  waits r hr := h.waits r (List.mem_of_mem_filter hr)

/-- A request is the only one of its handle (R159). -/
theorem RequestsFit.only {l : List Request} (h : RequestsFit l) {q r : Request} (hq : q ∈ l) (hr : r ∈ l)
    (e : q.handle = r.handle) : q = r := List.inj_on_of_nodup_map h.distinct hq hr e

/-- A change of requests in their places under which the same ones are ACTIVE. -/
theorem Cap.Listed.map (h : c.Listed) {f : Request → Request} (list : RequestsFit (c.requests.map f))
    (handle : ∀ r, (f r).handle = r.handle) (active : ∀ r ∈ c.requests, (f r).state = .active ↔ r.state = .active) :
    Cap.Listed { c with requests := c.requests.map f } where
  mem := h.mem
  next := h.next
  list := list
  free := h.free
  named a ha := by
    obtain ⟨r, hr, rfl, hs⟩ := h.named a ha
    exact ⟨f r, List.mem_map_of_mem hr, handle r, (active r hr).mpr hs⟩
  active := by
    rintro _ hq ha
    obtain ⟨r, hr, rfl⟩ := List.mem_map.mp hq
    rw [handle]
    exact h.active r hr ((active r hr).mp ha)

/-- R157: requests that are not ACTIVE leave the list. -/
theorem Cap.Listed.filter (h : c.Listed) {keep : Request → Bool}
    (active : ∀ r ∈ c.requests, r.state = .active → keep r = true) :
    Cap.Listed { c with requests := c.requests.filter keep } where
  mem := h.mem
  next := h.next
  list := h.list.filter keep
  free := h.free
  named a ha := by
    obtain ⟨r, hr, hh, hs⟩ := h.named a ha
    exact ⟨r, List.mem_filter.mpr ⟨hr, active r hr hs⟩, hh, hs⟩
  active r hr := h.active r (List.mem_of_mem_filter hr)

/-- R156: the memory is freed, and no request is ACTIVE any more. -/
theorem Cap.Listed.freed (h : c.Listed) {l : List Request} (list : RequestsFit l) (idle : ∀ r ∈ l, r.state ≠ .active) :
    Cap.Listed { c.freeMemory with requests := l } :=
  ⟨Memory.wf_empty, h.next, list, by simp [Cap.freeMemory], fun _ ha => (by cases ha),
    fun r hr ha => absurd ha (idle r hr)⟩

/-- R162: after the grant rule no request is TRIGGERED while the unit is FREE. -/
theorem State.grant_agrees (h : s.cap.Listed) (t : Stamp) : CaptureAgrees (s.grant t) := by
  unfold State.grant
  split
  next hf =>
    split
    next hn => exact h.agrees fun _ => Cap.nextGrant_none.mp hn
    next r hr =>
      obtain ⟨hm, ht⟩ := Cap.nextGrant_spec hr
      have idle := h.idle hf
      have granted : CaptureAgrees (s.modCap fun c =>
          { c with unit := .filling, active := some r.handle, mem := .empty, recorded := 0, started := false,
                   window := none, requests := setRequestState r.handle .active c.requests }) := by
        refine Cap.Listed.agrees ?_ (fun x => by cases x)
        have latched : r.latched = r.named := by
          by_contra hne
          rw [(h.list.waits r hm).mpr hne] at ht
          cases ht
        have list : RequestsFit (setRequestState r.handle .active s.cap.requests) := by
          refine h.list.map (fun q => ?_) (fun q => ?_) (fun q hq => ?_) (fun q hq => ?_) <;> split
          · rfl
          · rfl
          · rfl
          · rfl
          · exact h.list.latches q hq
          · exact h.list.latches q hq
          next e => simp [h.list.only hq hm e, latched]
          · exact h.list.waits q hq
        refine { mem := Memory.wf_empty, next := h.next, list := list, free := by simp, named := ?_, active := ?_ }
        all_goals
          simp only [State.modCap_cap, setRequestState, List.mem_map, forall_exists_index, and_imp, forall_apply_eq_imp_iff₂]
        · intro a ha
          cases ha
          exact ⟨_, ⟨r, hm, rfl⟩, by simp, by simp⟩
        · intro q hq
          split
          next e => intro _; simp [e]
          next e => intro ha; exact absurd ha (idle q hq)
      dsimp only
      split
      · exact (State.endFilling_filled (by simp) t _).fits.capture granted
      · exact granted
  next hu => exact h.agrees fun hf => absurd hf hu

theorem State.grant_queues (s : State) (t : Stamp) (h : QueuesFit s) : QueuesFit (s.grant t) := by
  unfold State.grant
  split
  · split
    · exact h
    · dsimp only
      split
      · exact (State.endFilling_filled (by simp) t _).queues (h.congr rfl)
      · exact h.congr rfl
  · exact h

/-- A change of the request list with the grant that follows it. -/
theorem State.modCap_grant_fits {f : Cap → Cap} (h : CaptureAgrees s → (f s.cap).Listed) (t : Stamp) :
    Fits s ((s.modCap f).grant t) :=
  ⟨fun q => State.grant_queues _ t (q.congr rfl), fun c => State.grant_agrees (h c) t⟩

/-! ### Latching and re-arming (R159, R160, R169, R173) -/

@[simp] theorem Request.latch_handle (conds : Byte) (r : Request) : (r.latch conds).handle = r.handle := by
  unfold Request.latch; split <;> rfl

@[simp] theorem Request.latch_port (conds : Byte) (r : Request) : (r.latch conds).port = r.port := by
  unfold Request.latch; split <;> rfl

@[simp] theorem Request.latch_named (conds : Byte) (r : Request) : (r.latch conds).named = r.named := by
  unfold Request.latch; split <;> rfl

theorem Request.latch_latches {r : Request} (h : r.latched &&& r.named = r.latched) (conds : Byte) :
    (r.latch conds).latched &&& (r.latch conds).named = (r.latch conds).latched := by
  unfold Request.latch
  split
  · show (r.latched ||| (conds &&& r.named)) &&& r.named = _
    rw [BitVec.and_or_distrib_right, h, BitVec.and_assoc, BitVec.and_self]
  · exact h

theorem Request.latch_waits {r : Request} (h : r.state = .waiting ↔ r.latched ≠ r.named) (conds : Byte) :
    (r.latch conds).state = .waiting ↔ (r.latch conds).latched ≠ (r.latch conds).named := by
  unfold Request.latch
  split
  · dsimp only
    split <;> simp_all
  · exact h

theorem Cap.Listed.latch (h : c.Listed) (conds : Request → Byte) :
    Cap.Listed { c with requests := c.requests.map fun r => r.latch (conds r) } :=
  h.map
    (h.list.map (fun _ => Request.latch_handle _ _) (fun _ => Request.latch_port _ _)
      (fun r hr => Request.latch_latches (h.list.latches r hr) _) (fun r hr => Request.latch_waits (h.list.waits r hr) _))
    (fun _ => Request.latch_handle _ _) (fun _ _ => Request.latch_active)

theorem State.latchAll_fits (s : State) (t : Stamp) (conds : Request → Byte) : Fits s (s.latchAll t conds) :=
  State.modCap_grant_fits (fun h => h.listed.latch conds) t

theorem State.noticeCompletion_fits (s : State) (t : Stamp) (c : Cyl) (m : MisfireVerdict) (k : KnockVerdict) :
    Fits s (s.noticeCompletion t c m k) := s.latchAll_fits t _

theorem State.noticeFullSync_fits (s : State) (t : Stamp) : Fits s (s.noticeFullSync t) := s.latchAll_fits t _

/-- A request that returns to WAITING names a condition, so it waits or is TRIGGERED by what latches at once (R158, R169). -/
theorem Request.rearm_fields (conds : Byte) (r : Request) :
    (r.rearm conds).handle = r.handle ∧ (r.rearm conds).port = r.port ∧ (r.rearm conds).named = r.named ∧
      (r.rearm conds).latched = conds &&& r.named ∧
      (r.rearm conds).state = if conds &&& r.named = r.named then .triggered else .waiting := by
  simp [Request.rearm, Request.latch]

theorem Request.rearm_latches (conds : Byte) (r : Request) :
    (r.rearm conds).latched &&& (r.rearm conds).named = (r.rearm conds).latched := by
  obtain ⟨-, -, named, latched, -⟩ := r.rearm_fields conds
  rw [named, latched, BitVec.and_assoc, BitVec.and_self]

theorem Request.rearm_waits (conds : Byte) (r : Request) :
    (r.rearm conds).state = .waiting ↔ (r.rearm conds).latched ≠ (r.rearm conds).named := by
  obtain ⟨-, -, named, latched, state⟩ := r.rearm_fields conds
  rw [named, latched, state]
  split <;> simp_all

theorem Request.rearm_active (conds : Byte) (r : Request) : (r.rearm conds).state ≠ .active := by
  obtain ⟨-, -, -, -, state⟩ := r.rearm_fields conds
  rw [state]
  split <;> simp

theorem State.capGeometry_fits (s : State) (t : Stamp) : Fits s (s.capGeometry t) := by
  refine State.modCap_grant_fits (fun h => ?_) t
  have handle : ∀ r : Request, (if r.state = .active then r else r.rearm (armConds s)).handle = r.handle := fun r => by
    split; exacts [rfl, (r.rearm_fields _).1]
  refine h.listed.map (h.listed.list.map handle (fun r => ?_) (fun r hr => ?_) fun r hr => ?_) handle (fun r hr => ?_) <;> split
  · rfl
  · exact (r.rearm_fields _).2.1
  · exact h.latches r hr
  · exact r.rearm_latches _
  · exact h.waits r hr
  · exact r.rearm_waits _
  · exact .rfl
  · next ha => exact iff_of_false (r.rearm_active _) ha

end Sys2Proof.Machine
end

section
/-! PROOFS. What keeps the seven invariants: the relation `Preserves`, and the layout events under it (chapters 2 to 7). -/

namespace Sys2Proof.Machine

/-! ### The invariants together -/

/-- R105: references and retards within the limits of an image. -/
structure Kna.FitsIn (k : Kna) (img : Image) : Prop where
  retards : ∀ c : Cyl, (k.cyl.get c).retard ≤ img.retardMax
  refs : ∀ c : Cyl, img.refFloor ≤ (k.cyl.get c).ref ∧ (k.cyl.get c).ref ≤ 2097120
  grefs : ∀ σ : Sensor, img.refFloor ≤ k.gref.get σ ∧ k.gref.get σ ≤ 2097120

/-- R97: every row without auto-range has its initial gain in use. -/
def Kfe.GainsFor (k : Kfe) (img : Image) : Prop :=
  ∀ r, r < 12 → (img.row r).autoRange = false → (k.rowGain r).gain = (img.row r).initGain

/-- R30, R31: the cursor is positioned in FULL_SYNC alone, inside the run list. -/
structure Smap.CursorFor (m : Smap) (img : Image) (sync : SyncState) : Prop where
  positioned : m.cursor.isSome ↔ sync = .fullSync
  inRun : ∀ r, m.cursor = some r → img.runStart ≤ r ∧ r ≤ img.runEnd

/-- A change that keeps every invariant of the part. -/
structure Preserves (s u : State) : Prop extends Fits s u where
  commit : CommitAgrees s → CommitAgrees u
  images : ImagesAgree s → ImagesAgree u
  knock : KnockStateFits s → KnockStateFits u
  gains : GainsAgree s → GainsAgree u
  cursor : CursorAgrees s → CursorAgrees u

variable {s u w : State}

theorem KnockStateFits.kna (h : KnockStateFits s) : s.kna.FitsIn s.cfg.active := ⟨h.retards, h.refs, h.grefs⟩

theorem CursorAgrees.smap (h : CursorAgrees s) : s.smap.CursorFor s.cfg.active s.adec.sync := ⟨h.positioned, h.inRun⟩

theorem Preserves.refl (s : State) : Preserves s s := ⟨.refl s, id, id, id, id, id⟩

theorem Preserves.trans (h : Preserves s u) (k : Preserves u w) : Preserves s w :=
  ⟨h.toFits.trans k.toFits, k.commit ∘ h.commit, k.images ∘ h.images, k.knock ∘ h.knock, k.gains ∘ h.gains,
    k.cursor ∘ h.cursor⟩

theorem CommitAgrees.congr (h : CommitAgrees s) (cfg : u.cfg = s.cfg) (sync : u.adec.sync = s.adec.sync)
    (polarity : u.adec.polarity = s.adec.polarity) : CommitAgrees u := by
  obtain ⟨a, b, c, d, e, f⟩ := h
  rw [← cfg, ← sync] at a
  rw [← cfg] at b c d e f
  rw [← polarity] at e f
  exact ⟨a, b, c, d, e, f⟩

theorem ImagesAgree.congr (h : ImagesAgree s) (cfg : u.cfg = s.cfg) (sync : u.adec.sync = s.adec.sync)
    (polarity : u.adec.polarity = s.adec.polarity) : ImagesAgree u :=
  ⟨h.commit.congr cfg sync polarity, by rw [cfg]; exact h.active, by rw [cfg]; exact h.staged, by rw [cfg]; exact h.passes⟩

/-- A change under which the configuration, the sync state and the polarity stand: what is left is each block's own share. -/
theorem Preserves.of_cfg (fits : Fits s u) (cfg : u.cfg = s.cfg) (sync : u.adec.sync = s.adec.sync)
    (polarity : u.adec.polarity = s.adec.polarity)
    (kna : KnockStateFits s → u.kna.FitsIn s.cfg.active) (gains : GainsAgree s → u.kfe.GainsFor s.cfg.active)
    (cursor : CursorAgrees s → u.smap.CursorFor s.cfg.active s.adec.sync) : Preserves s u where
  toFits := fits
  commit h := h.congr cfg sync polarity
  images h := h.congr cfg sync polarity
  knock h := by
    obtain ⟨retards, refs, grefs⟩ := kna h
    rw [← cfg] at retards refs grefs
    exact ⟨h.images.congr cfg sync polarity, retards, refs, grefs⟩
  gains h := by
    have k := gains h
    rw [← cfg] at k
    exact k
  cursor h := by
    obtain ⟨positioned, inRun⟩ := cursor h
    rw [← cfg] at inRun
    rw [← sync] at positioned
    exact ⟨h.images.congr cfg sync polarity, positioned, inRun⟩

theorem Kfe.GainsFor.congr {k l : Kfe} {img : Image} (h : k.GainsFor img) (rows : l.rows = k.rows) : l.GainsFor img :=
  fun r hr ha => by rw [Kfe.rowGain, rows]; exact h r hr ha

/-- A change that leaves alone everything the invariants speak of but ports and capture unit. -/
theorem Preserves.of_same (fits : Fits s u) (cfg : u.cfg = s.cfg) (sync : u.adec.sync = s.adec.sync)
    (polarity : u.adec.polarity = s.adec.polarity) (kna : u.kna = s.kna) (rows : u.kfe.rows = s.kfe.rows)
    (cursor : u.smap.cursor = s.smap.cursor) : Preserves s u :=
  .of_cfg fits cfg sync polarity (fun h => by rw [kna]; exact h.kna) (fun h => Kfe.GainsFor.congr h rows) fun h =>
    ⟨by rw [cursor]; exact h.positioned, by rw [cursor]; exact h.inRun⟩

theorem Preserves.of_done (f : DoneFrame s u) (fits : Fits s u) : Preserves s u :=
  .of_same fits f.cfg (by rw [f.adec]) (by rw [f.adec]) f.kna (by rw [f.kfe]) (by rw [f.smap])

/-- The same of a change of the bookkeeping fields: time, marks, spark records, operating state, misfire assessor, integrators and
cylinder table. -/
theorem Preserves.of_eq (ports : u.ports = s.ports) (cap : u.cap = s.cap) (cfg : u.cfg = s.cfg) (adec : u.adec = s.adec)
    (kna : u.kna = s.kna) (rows : u.kfe.rows = s.kfe.rows) (cursor : u.smap.cursor = s.smap.cursor) : Preserves s u :=
  .of_same (.of_eq ports cap) cfg (by rw [adec]) (by rw [adec]) kna rows cursor

theorem State.emit_preserves (s : State) (r : Record) : Preserves s (s.emit r) :=
  .of_done (s.emit_frame r).toDoneFrame (s.emit_fits r)

theorem State.emitFor_preserves (s : State) (t : Stamp) (c : Cyl) (n : Half) (b : Option RecordBody) :
    Preserves s (s.emitFor t c n b) := .of_done (s.emitFor_frame t c n b).toDoneFrame (s.emitFor_fits t c n b)

theorem State.modMfa_preserves (s : State) (f : Mfa → Mfa) : Preserves s (s.modMfa f) := .of_eq rfl rfl rfl rfl rfl rfl rfl

theorem State.modCyt_preserves (s : State) (f : Cyt → Cyt) : Preserves s (s.modCyt f) := .of_eq rfl rfl rfl rfl rfl rfl rfl

theorem State.setOps_preserves (s : State) (o : Ops) : Preserves s (s.setOps o) := .of_eq rfl rfl rfl rfl rfl rfl rfl

theorem State.modChain_preserves (s : State) (σ : Sensor) (f : SensorChain → SensorChain) : Preserves s (s.modChain σ f) :=
  .of_eq rfl rfl rfl rfl rfl rfl rfl

/-- A change of the decoder that keeps sync state and polarity. -/
theorem State.setAdec_preserves {a : Adec} (sync : a.sync = s.adec.sync) (polarity : a.polarity = s.adec.polarity) :
    Preserves s (s.setAdec a) := .of_same (.of_eq rfl rfl) rfl sync polarity rfl rfl rfl

/-! ### Completion and the misfire assessor (R72, R133) -/

theorem State.complete_preserves (s : State) (t : Stamp) (i : SlotInst) (m : MisfirePart) (k : KnockPart) :
    Preserves s (s.complete t i m k) := by
  unfold State.complete
  exact (((s.modCyt_preserves _).trans (State.emit_preserves _ _)).trans
    (.of_done (State.noticeCompletion_frame _ _ _ _ _).toDoneFrame (State.noticeCompletion_fits _ _ _ _ _))).trans
      (State.modCyt_preserves _ _)

theorem State.tryComplete_preserves (s : State) (t : Stamp) (i : Nat) (n : Half) : Preserves s (s.tryComplete t i n) := by
  unfold State.tryComplete
  split
  · exact .refl s
  · split
    · exact s.complete_preserves _ _ _ _
    · exact .refl s

theorem State.applyMisfire_preserves (s : State) (t : Stamp) (i : SlotInst) (j : MisfireJudged) :
    Preserves s (s.applyMisfire t i j) := by
  unfold State.applyMisfire
  refine Preserves.trans ?_ ((State.modCyt_preserves _ _).trans (State.tryComplete_preserves _ _ _ _))
  have counted := s.modMfa_preserves fun m =>
    { m with counts := m.counts.set i.cyl ((s.mfa.counts.get i.cyl).after s.cfg.active j.verdict),
             history := historyAfter m.history j, last := some ⟨i.slot, i.cycle, (i.spark.bind (·.cut)).isSome⟩ }
  split <;> split
  · exact (counted.trans (State.emit_preserves _ _)).trans (State.emit_preserves _ _)
  · exact counted.trans (State.emit_preserves _ _)
  · exact counted.trans (State.emit_preserves _ _)
  · exact counted

theorem State.decideMisfire_preserves (s : State) (t : Stamp) (j : Nat) (c : Half) : Preserves s (s.decideMisfire t j c) := by
  unfold State.decideMisfire
  dsimp only
  split
  · exact .refl s
  · split
    · exact .refl s
    · exact s.applyMisfire_preserves _ _ _

theorem State.segmentBoundary_preserves (s : State) (t : Stamp) (j : Nat) (c : Half) :
    Preserves s (s.segmentBoundary t j c) :=
  ((s.modMfa_preserves _).trans (State.decideMisfire_preserves _ _ _ _)).trans (State.modMfa_preserves _ _)

theorem State.forceWarmup_preserves (t : Stamp) (s : State) (n : Nat × Half) : Preserves s (State.forceWarmup t s n) := by
  unfold State.forceWarmup
  split
  · exact .refl s
  · split
    · exact .refl s
    · exact s.applyMisfire_preserves _ _ _

/-- A fold of changes that each keep the invariants keeps them. -/
theorem Preserves.foldl {α : Type} {f : State → α → State} (step : ∀ x a, Preserves x (f x a)) (l : List α) (s : State) :
    Preserves s (l.foldl f s) := by
  induction l generalizing s with
  | nil => exact .refl s
  | cons a l ih => exact (step s a).trans (ih _)

theorem State.segOffsetApply_preserves (s : State) (t : Stamp) : Preserves s (s.segOffsetApply t) :=
  ((s.modMfa_preserves _).trans (.foldl (State.forceWarmup_preserves t) _ _)).trans (State.modMfa_preserves _ _)

theorem State.emitRate_preserves (t : Stamp) (s : State) (c : Cyl) : Preserves s (State.emitRate t s c) := by
  unfold State.emitRate
  split
  · exact s.emit_preserves _
  · exact .refl s

theorem State.blockBoundary_preserves (s : State) (t : Stamp) : Preserves s (s.blockBoundary t) := by
  unfold State.blockBoundary
  split
  · exact (Preserves.foldl (State.emitRate_preserves t) _ _).trans (State.modMfa_preserves _ _)
  · exact s.modMfa_preserves _

/-! ### The knock assessor (R112 to R117) -/

/-- What the staged ranges give of an image's references: the floor and the initial value do not exceed the ceiling (R104). -/
theorem ImageInRange.floor_le {img : Image} (h : ImageInRange img) : img.refFloor ≤ refCeiling := by
  have := h.items 27 (by decide) (by decide)
  simp only [itemInRange, itemBounds, Bool.and_eq_true, decide_eq_true_eq] at this
  have hi : img.item 27 ≤ 65535 := this.1.2
  exact hi.trans (by decide)

theorem ImageInRange.init_le {img : Image} (h : ImageInRange img) : img.refInit ≤ refCeiling := by
  have := h.items 26 (by decide) (by decide)
  simp only [itemInRange, itemBounds, Bool.and_eq_true, decide_eq_true_eq] at this
  exact this.1.2

theorem Kna.FitsIn.setCyl {k : Kna} {img : Image} (h : k.FitsIn img) (c : Cyl) {x : KnockCounts}
    (retard : x.retard ≤ img.retardMax) (ref : img.refFloor ≤ x.ref ∧ x.ref ≤ 2097120) :
    Kna.FitsIn { k with cyl := k.cyl.set c x } img := by
  refine ⟨fun d => ?_, fun d => ?_, h.grefs⟩ <;> by_cases e : d = c
  · subst e; rw [PerCyl.get_set_same]; exact retard
  · rw [PerCyl.get_set_ne _ _ e]; exact h.retards d
  · subst e; rw [PerCyl.get_set_same]; exact ref
  · rw [PerCyl.get_set_ne _ _ e]; exact h.refs d

theorem Kna.FitsIn.setGref {k : Kna} {img : Image} (h : k.FitsIn img) (σ : Sensor) {x : Nat}
    (ref : img.refFloor ≤ x ∧ x ≤ 2097120) : Kna.FitsIn { k with gref := k.gref.set σ x } img := by
  refine ⟨h.retards, h.refs, fun τ => ?_⟩
  by_cases e : τ = σ
  · subst e; rw [PerSensor.get_set_same]; exact ref
  · rw [PerSensor.get_set_ne _ _ e]; exact h.grefs τ

theorem adaptRef_fits {img : Image} (h : img.refFloor ≤ refCeiling) (ref x : Nat) :
    img.refFloor ≤ adaptRef img ref x ∧ adaptRef img ref x ≤ 2097120 := clamp_range h _

theorem judgeRatio_fits {img : Image} (hf : img.refFloor ≤ refCeiling) {k : Kna} (h : k.FitsIn img) (x : KnockInputs)
    (q : Option Nat) : (judgeRatio img k x q).kna.FitsIn img := by
  unfold judgeRatio
  dsimp only
  split
  · exact h.setCyl x.cyl (min_le_left _ _) (h.refs x.cyl)
  · refine h.setCyl x.cyl ?_ ?_ <;> unfold KnockCounts.afterClean <;> split
    · exact (Nat.sub_le _ _).trans (h.retards x.cyl)
    · exact h.retards x.cyl
    · exact adaptRef_fits hf _ _
    · exact adaptRef_fits hf _ _

/-- R105: a knock decision keeps references and retards within their limits. -/
theorem judgeKnock_fits {img : Image} (hf : img.refFloor ≤ refCeiling) {k : Kna} (h : k.FitsIn img) (x : KnockInputs) :
    (judgeKnock img k x).kna.FitsIn img := by
  unfold judgeKnock
  dsimp only
  split; · exact h
  split; · exact h
  split; · exact h
  split; · exact h
  split
  · exact judgeRatio_fits hf h x _
  · split
    · exact h
    · exact judgeRatio_fits hf (h.setGref x.sensor (adaptRef_fits hf _ _)) x _

theorem State.setKna_preserves {k : Kna} (h : KnockStateFits s → k.FitsIn s.cfg.active) : Preserves s (s.setKna k) :=
  .of_cfg (.of_eq rfl rfl) rfl rfl rfl h id fun h => h.smap

theorem State.applyKnock_preserves {d : KnockDecision} (h : KnockStateFits s → d.kna.FitsIn s.cfg.active) (t : Stamp)
    (i : SlotInst) : Preserves s (s.applyKnock t i d) := by
  unfold State.applyKnock
  exact (((State.setKna_preserves h).trans (State.emitFor_preserves _ _ _ _ _)).trans (State.modCyt_preserves _ _)).trans
    (State.tryComplete_preserves _ _ _ _)

theorem State.tryKnock_preserves (s : State) (t : Stamp) (i : Nat) (n : Half) : Preserves s (s.tryKnock t i n) := by
  unfold State.tryKnock
  split
  · exact .refl s
  · split
    · split
      · exact State.applyKnock_preserves (fun h => judgeKnock_fits h.images.active.floor_le h.kna _) t _
      · exact .refl s
    · exact .refl s

/-! ### Windows (R90 to R99) -/

/-- R99: the step reaches only a row whose auto-range is on. -/
theorem State.autoRange_preserves (s : State) (t : Stamp) (σ : Sensor) (k : KnockIntegrator) :
    Preserves s (s.autoRange t σ k) := by
  unfold State.autoRange
  dsimp only
  split
  · next on =>
    refine Preserves.trans ?_ (State.emitFor_preserves _ _ _ _ _)
    refine .of_cfg (.of_eq rfl rfl) rfl rfl rfl (fun h => h.kna) (fun h r hr ha => ?_) fun h => h.smap
    have ne : r ≠ k.row := by rintro rfl; rw [ha] at on; exact absurd on.1 (by decide)
    show (vget _ (vset s.kfe.rows k.row _) r).gain = _
    rw [vget_vset_ne _ _ _ ne]
    exact h r hr ha
  · exact .refl s

theorem State.knockOpen_preserves (s : State) (t : Stamp) (i : Nat) (c : Half) : Preserves s (s.knockOpen t i c) :=
  (s.modChain_preserves _ _).trans (.of_done (State.noticeOpen_frame _ _ _ _ _ _).toDoneFrame (State.noticeOpen_fits _ _ _ _ _ _))

theorem State.guardOpen_preserves (s : State) (i : Nat) (c : Half) : Preserves s (s.guardOpen i c) := by
  unfold State.guardOpen
  exact s.modChain_preserves _ _

theorem State.knockClose_preserves (s : State) (t : Stamp) (i : Nat) : Preserves s (s.knockClose t i) := by
  unfold State.knockClose
  dsimp only
  split
  · exact .refl s
  · exact ((((s.autoRange_preserves _ _ _).trans
      (.of_done (State.noticeClose_frame _ _ _ _ _).toDoneFrame (State.noticeClose_fits _ _ _ _ _))).trans
        (State.modChain_preserves _ _ _)).trans (State.modCyt_preserves _ _)).trans (State.tryKnock_preserves _ _ _ _)

theorem State.guardClose_preserves (s : State) (t : Stamp) (i : Nat) : Preserves s (s.guardClose t i) := by
  unfold State.guardClose
  dsimp only
  split
  · exact .refl s
  · exact ((s.modChain_preserves _ _).trans (State.modCyt_preserves _ _)).trans (State.tryKnock_preserves _ _ _ _)

theorem State.abandonSensor_preserves (s : State) (t : Stamp) (σ : Sensor) (b : Bool) : Preserves s (s.abandonSensor t σ b) := by
  unfold State.abandonSensor
  dsimp only
  split
  · exact (s.modChain_preserves _ _).trans
      (.of_done (State.noticeAbandon_frame _ _ _ _).toDoneFrame (State.noticeAbandon_fits _ _ _ _))
  · exact s.modChain_preserves _ _

theorem State.abandonWindows_preserves (s : State) (t : Stamp) (b : Bool) : Preserves s (s.abandonWindows t b) :=
  (s.abandonSensor_preserves _ _ _).trans (State.abandonSensor_preserves _ _ _ _)

theorem State.sampleSensor_preserves (s : State) (t : Stamp) (σ : Sensor) (x : Half) : Preserves s (s.sampleSensor t σ x) := by
  unfold State.sampleSensor
  dsimp only
  split
  · exact (s.modChain_preserves _ _).trans
      (.of_done (State.noticeSample_frame _ _ _ _).toDoneFrame (State.noticeSample_fits _ _ _ _))
  · exact s.modChain_preserves _ _

theorem State.sample_preserves (s : State) (t : Stamp) (x y : Half) : Preserves s (s.sample t x y) := by
  have taken : Preserves s (s.setKfe { s.kfe with lastSample := t }) := .of_eq rfl rfl rfl rfl rfl rfl rfl
  exact (taken.trans (State.sampleSensor_preserves _ _ _ _)).trans (State.sampleSensor_preserves _ _ _ _)

/-! ### Layout events (R32, R33, R41, R43) -/

theorem State.sparkOpen_preserves (s : State) (i : Nat) (c : Half) : Preserves s (s.sparkOpen i c) :=
  .of_eq rfl rfl rfl rfl rfl rfl rfl

theorem State.sparkClose_preserves (s : State) (t : Stamp) (i : Nat) : Preserves s (s.sparkClose t i) := by
  unfold State.sparkClose
  dsimp only
  split
  · exact .refl s
  · refine Preserves.trans ?_ (State.tryKnock_preserves _ _ _ _)
    exact .of_eq rfl rfl rfl rfl rfl rfl rfl

/-- R36: an image that passes the checks has a run list of 3 to 6 rows, so that its start lies before its end. -/
theorem slots_of_passes {img : Image} (h : failedCheck img = none) :
    img.runStart ≤ img.runEnd ∧ 3 ≤ img.slots ∧ img.slots ≤ 6 := by
  have count : failsSlotCount img = false := by
    by_contra hc
    rw [Bool.not_eq_false] at hc
    rw [failedCheck, if_pos hc] at h
    cases h
  simpa [failsSlotCount, and_assoc] using count

theorem Smap.CursorFor.advance {m : Smap} {img : Image} {y : SyncState} (h : m.CursorFor img y)
    (run : img.runStart ≤ img.runEnd) : (m.advance img).CursorFor img y := by
  refine ⟨by rw [Smap.advance, Option.isSome_map]; exact h.positioned, fun r hr => ?_⟩
  obtain ⟨q, hq, rfl⟩ := Option.map_eq_some_iff.mp hr
  have := h.inRun q hq
  split <;> omega

theorem State.slotBoundary_preserves (s : State) (i : Nat) (c : Half) : Preserves s (s.slotBoundary i c) := by
  have advanced : Preserves s (s.setSmap (s.smap.advance s.cfg.active)) :=
    .of_cfg (.of_eq rfl rfl) rfl rfl rfl (fun h => h.kna) id fun h =>
      h.smap.advance (slots_of_passes h.images.passes).1
  unfold State.slotBoundary
  dsimp only
  split
  · exact advanced.trans (State.modCyt_preserves _ _)
  · exact advanced

theorem State.raise_preserves (t : Stamp) (c : Half) (s : State) (e : LayoutEvent) : Preserves s (State.raise t c s e) := by
  unfold State.raise
  dsimp only
  cases e.kind with
  | segment => exact s.segmentBoundary_preserves _ _ _
  | slotBoundary => exact s.slotBoundary_preserves _ _
  | sparkOpen => exact s.sparkOpen_preserves _ _
  | sparkClose => dsimp only; split; exacts [s.sparkClose_preserves _ _, .refl s]
  | knockOpen => dsimp only; split; exacts [s.knockOpen_preserves _ _ _, .refl s]
  | knockClose => dsimp only; split; exacts [s.knockClose_preserves _ _, .refl s]
  | guardOpen => dsimp only; split; exacts [s.guardOpen_preserves _ _, .refl s]
  | guardClose => dsimp only; split; exacts [s.guardClose_preserves _ _, .refl s]

theorem State.raiseAll_preserves (s : State) (t : Stamp) (c : Half) (l : List LayoutEvent) : Preserves s (s.raiseAll t c l) :=
  .foldl (State.raise_preserves t c) l s

theorem State.reachAngle_preserves (s : State) (t : Stamp) (x : Nat) : Preserves s (s.reachAngle t x) := by
  unfold State.reachAngle
  split
  · refine Preserves.trans ?_ (State.raiseAll_preserves _ _ _ _)
    exact State.setAdec_preserves rfl rfl
  · exact .refl s

end Sys2Proof.Machine
end

section
/-! PROOFS. The seven invariants at changes of the sync state and at an apply (chapters 1 and 10). -/

namespace Sys2Proof.Machine

variable {s u m : State}

/-! ### The capture unit and the queues at a loss and at an apply -/

theorem State.syncLoss_fits (s : State) (t : Stamp) : Fits s (s.syncLoss t) := by
  unfold State.syncLoss
  refine Fits.trans ?_ (State.capSyncLoss_fits _ _)
  refine Fits.trans ?_ (State.modCyt_preserves _ _).toFits
  refine Fits.trans ?_ (State.abandonWindows_preserves _ _ _).toFits
  exact .of_eq rfl rfl

theorem State.lossEvents_fits (s : State) (t : Stamp) (b : SyncState) : Fits s (s.lossEvents t b) := by
  have lost : ∀ (p : Prop) [Decidable p] (x : State), Fits x (if p then x.syncLoss t else x) := by
    intro p _ x; split; exacts [x.syncLoss_fits t, .refl x]
  have ended : ∀ (p : Prop) [Decidable p] (x : State), Fits x (if p then x.capCrankLoss t else x) := by
    intro p _ x; split; exacts [x.capCrankLoss_fits t, .refl x]
  have halted : ∀ (p : Prop) [Decidable p] (x : State), Fits x (if p then x.modMfa Mfa.halt else x) := by
    intro p _ x; split; exacts [(x.modMfa_preserves _).toFits, .refl x]
  exact ((lost _ s).trans (ended _ _)).trans (halted _ _)

theorem State.changeSync_fits (s : State) (t : Stamp) (a : Adec) (c : SyncCause) : Fits s (s.changeSync t a c) := by
  have set : Fits s (s.setAdec a) := .of_eq rfl rfl
  exact (set.trans (State.emitSync_fits _ _ _)).trans (State.lossEvents_fits _ _ _)

theorem State.applyAdec_fits (s : State) (t : Stamp) (cls : CommitClass) (old : Image) : Fits s (s.applyAdec t cls old) := by
  have restart : Fits s (if cls = .geometry then
      let a := { s.adec with polarity := polarityFor s.cfg.active s.adec.polarity, verifyFails := 0, camFaults := 0 }
      if s.adec.sync = .halted then s.setAdec a else s.changeSync t (a.enterSeek none) .commit else s) := by
    split
    · dsimp only
      split
      · exact .of_eq rfl rfl
      · exact s.changeSync_fits _ _ _
    · exact .refl s
  have stalled : ∀ x : State, Fits x (if decide (old.stallMs ≠ s.cfg.active.stallMs) && x.stallDue t then x.stallNow t else x) := by
    intro x; split; exacts [x.changeSync_fits _ _ _, .refl x]
  exact restart.trans (stalled _)

theorem State.applySmap_fits (s : State) (t : Stamp) (cls : CommitClass) : Fits s (s.applySmap t cls) := by
  cases cls with
  | calibration => exact .refl s
  | geometry => exact .of_eq rfl rfl
  | layout =>
    have abandoned := (s.abandonWindows_preserves t true).toFits
    unfold State.applySmap
    dsimp only
    split
    · exact abandoned.trans (.of_eq rfl rfl)
    · exact abandoned.trans (.of_eq rfl rfl)

theorem State.applyMfa_fits (s : State) (t : Stamp) (cls : CommitClass) (old : Image) : Fits s (s.applyMfa t cls old) := by
  have emptied : Fits s (if cls = .calibration then s else s.modMfa fun m => m.newRunList s.cfg.active) := by
    split; exacts [.refl s, (s.modMfa_preserves _).toFits]
  unfold State.applyMfa
  dsimp only
  split
  · exact emptied.trans (State.segOffsetApply_preserves _ _).toFits
  · exact emptied

theorem State.applyCap_fits (s : State) (t : Stamp) (cls : CommitClass) : Fits s (s.applyCap t cls) := by
  cases cls with
  | calibration => exact .refl s
  | layout => exact s.capRunList_fits t
  | geometry => exact (s.capRunList_fits t).trans (State.capGeometry_fits _ t)

theorem State.applyCyt_fits (s : State) (cls : CommitClass) (old : Image) : Fits s (s.applyCyt cls old) := by
  unfold State.applyCyt
  split; exacts [.refl s, (s.modCyt_preserves _).toFits]

theorem State.applyOps_fits (s : State) (old : Image) : Fits s (s.applyOps old) := by
  unfold State.applyOps
  split; exacts [.of_eq rfl rfl, .refl s]

theorem State.applyKna_fits (s : State) (cls : CommitClass) (old : Image) : Fits s (s.applyKna cls old) := by
  obtain ⟨-, -, -, -, -, -, cap, ports, -⟩ := s.applyKna_frame cls old
  exact .of_eq ports cap

theorem State.applyKfe_fits (s : State) (cls : CommitClass) (old : Image) : Fits s (s.applyKfe cls old) := .of_eq rfl rfl

theorem State.applyCommit_fits (s : State) (t : Stamp) (k : PendingCommit) : Fits s (s.applyCommit t k) := by
  unfold State.applyCommit State.applyEffects
  refine Fits.trans ?_ (State.alertAll_fits _ _)
  refine Fits.trans ?_ (State.emit_fits _ _)
  refine Fits.trans ?_ (State.applyCap_fits _ _ _)
  refine Fits.trans ?_ (State.applyKfe_fits _ _ _)
  refine Fits.trans ?_ (State.applyMfa_fits _ _ _ _)
  refine Fits.trans ?_ (State.applyOps_fits _ _)
  refine Fits.trans ?_ (State.applyCyt_fits _ _ _)
  refine Fits.trans ?_ (State.applyKna_fits _ _ _)
  refine Fits.trans ?_ (State.applySmap_fits _ _ _)
  refine Fits.trans ?_ (State.applyAdec_fits _ _ _ _)
  exact .of_eq rfl rfl

/-! ### The polarity (R2) -/

/-- R2: a polarity that agrees with an image's mode. -/
structure Polarity.AgreesWith (p : Polarity) (img : Image) : Prop where
  normal : img.polMode = 0 → p = .normal
  inverted : img.polMode = 1 → p = .inverted

theorem CommitAgrees.polarity (h : CommitAgrees s) : s.adec.polarity.AgreesWith s.cfg.active := ⟨h.normal, h.inverted⟩

theorem polarityFor_agrees (img : Image) (p : Polarity) : (polarityFor img p).AgreesWith img := by
  rw [polarityFor_eq]
  constructor <;> intro h <;> simp [polarityAfter, h]

/-- In mode AUTO every polarity agrees. -/
theorem Polarity.agrees_auto {img : Image} (h : img.polMode = 2) (p : Polarity) : p.AgreesWith img := by
  constructor <;> intro h' <;> omega

theorem Adec.enterHalted_polarity {a : Adec} {img : Image} (h : a.polarity.AgreesWith img) :
    (a.enterHalted img).polarity.AgreesWith img := by
  show (if img.polMode = 2 then a.lastGood else a.polarity).AgreesWith img
  split
  · next auto => exact Polarity.agrees_auto auto _
  · exact h

/-! ### Changes of the sync state (R20, R21) -/

/-- No commit is pending outside FULL_SYNC (R181). -/
theorem CommitAgrees.nothingPending (h : CommitAgrees s) (hs : s.adec.sync ≠ .fullSync) : s.cfg.pendingCommit = none := by
  by_contra hp
  exact hs (h.sync (Option.ne_none_iff_isSome.mp hp))

theorem CommitAgrees.of_nothingPending (pending : u.cfg.pendingCommit = none)
    (polarity : u.adec.polarity.AgreesWith u.cfg.active) : CommitAgrees u :=
  ⟨fun h => by simp [pending] at h, fun k h => by simp [pending] at h, fun k h => by simp [pending] at h,
    fun h => by simp [pending] at h, polarity.normal, polarity.inverted⟩

/-- A change of the sync state after which no commit is pending, while both images stand. -/
theorem Preserves.of_sync (fits : Fits s u) (active : u.cfg.active = s.cfg.active) (staged : u.cfg.staged = s.cfg.staged)
    (pending : CommitAgrees s → u.cfg.pendingCommit = none)
    (polarity : CommitAgrees s → u.adec.polarity.AgreesWith s.cfg.active) (kna : u.kna = s.kna)
    (rows : u.kfe.rows = s.kfe.rows) (cursor : CursorAgrees s → u.smap.CursorFor s.cfg.active u.adec.sync) :
    Preserves s u := by
  have commit : CommitAgrees s → CommitAgrees u := fun h =>
    .of_nothingPending (pending h) (by rw [active]; exact polarity h)
  have images : ImagesAgree s → ImagesAgree u := fun h =>
    ⟨commit h.commit, by rw [active]; exact h.active, by rw [staged]; exact h.staged, by rw [active]; exact h.passes⟩
  refine ⟨fits, commit, images, fun h => ?_, fun h => ?_, fun h => ?_⟩
  · obtain ⟨retards, refs, grefs⟩ := h.kna
    rw [← active, ← kna] at retards refs grefs
    exact ⟨images h.images, retards, refs, grefs⟩
  · have k := Kfe.GainsFor.congr (k := s.kfe) h rows
    rw [← active] at k
    exact k
  · obtain ⟨positioned, inRun⟩ := cursor h
    rw [← active] at inRun
    exact ⟨images h.images, positioned, inRun⟩

theorem Smap.CursorFor.none {c : Smap} {img : Image} {y : SyncState} (hc : c.cursor = none) (hy : y ≠ .fullSync) :
    c.CursorFor img y :=
  ⟨by simp [hc, hy], fun r hr => by rw [hc] at hr; cases hr⟩

theorem State.lossEvents_smap {b : SyncState} (h : ¬ (b = .fullSync ∧ s.adec.sync ≠ .fullSync)) (t : Stamp) :
    (s.lossEvents t b).smap = s.smap := by
  have ended : (if (b = .fullSync ∨ b = .crankSync) ∧ (s.adec.sync = .seek ∨ s.adec.sync = .halted) then
      s.capCrankLoss t else s).smap = s.smap := by
    split
    · exact (s.capCrankLoss_frame t).smap
    · rfl
  unfold State.lossEvents
  rw [if_neg h]
  dsimp only
  split
  · exact ended
  · exact ended

theorem State.changeSync_smap {a : Adec} (h : ¬ (s.adec.sync = .fullSync ∧ a.sync ≠ .fullSync)) (t : Stamp) (c : SyncCause) :
    (s.changeSync t a c).smap = s.smap := State.lossEvents_smap (by exact h) t

/-- R30: whatever leaves FULL_SYNC or stays outside it ends unpositioned. -/
theorem State.changeSync_cursor {a : Adec} (ha : a.sync ≠ .fullSync) (h : s.smap.cursor.isSome ↔ s.adec.sync = .fullSync)
    (t : Stamp) (c : SyncCause) : (s.changeSync t a c).smap.cursor = none := by
  by_cases hs : s.adec.sync = .fullSync
  · rw [(s.changeSync_lost t a c hs ha).1]
  · rw [State.changeSync_smap (fun k => hs k.1)]
    simpa using mt h.mp hs

theorem State.changeSync_adec (s : State) (t : Stamp) (a : Adec) (c : SyncCause) : (s.changeSync t a c).adec = a :=
  (s.changeSync_frame t a c).2

/-- A change of the sync state that does not lead to FULL_SYNC, while no commit is pending. -/
theorem State.changeSync_preserves {a : Adec} (ha : a.sync ≠ .fullSync)
    (pending : CommitAgrees s → s.cfg.pendingCommit = none)
    (polarity : CommitAgrees s → a.polarity.AgreesWith s.cfg.active) (t : Stamp) (c : SyncCause) :
    Preserves s (s.changeSync t a c) := by
  have f := (s.changeSync_frame t a c).1
  refine .of_sync (s.changeSync_fits t a c) (by rw [f.cfg]) (by rw [f.cfg]) (by rw [f.cfg]; exact pending) ?_ f.kna
    (s.changeSync_kept t a c).1.rows fun h => ?_
  · rw [State.changeSync_adec]; exact polarity
  · rw [State.changeSync_adec]; exact .none (State.changeSync_cursor ha h.positioned t c) ha

/-! ### A pending commit set aside -/

/-- The state without its pending commit. -/
def State.setAside (s : State) : State := s.setCfg { s.cfg with pendingCommit := none }

/-- An apply takes both images as they stand and does not ask what was pending (R182). -/
theorem State.applyCommit_setAside (s : State) (t : Stamp) (k : PendingCommit) : s.setAside.applyCommit t k = s.applyCommit t k :=
  rfl

theorem State.changeSync_setAside_preserves {a : Adec} (ha : a.sync ≠ .fullSync)
    (polarity : CommitAgrees s → a.polarity.AgreesWith s.cfg.active) (t : Stamp) (c : SyncCause) :
    Preserves s (s.changeSync t a c).setAside := by
  have f := (s.changeSync_frame t a c).1
  refine .of_sync ((s.changeSync_fits t a c).trans (.of_eq rfl rfl)) ?_ ?_ (fun _ => rfl) ?_ f.kna
    (s.changeSync_kept t a c).1.rows fun h => ?_
  · show (s.changeSync t a c).cfg.active = _; rw [f.cfg]
  · show (s.changeSync t a c).cfg.staged = _; rw [f.cfg]
  · show _ → (s.changeSync t a c).adec.polarity.AgreesWith _; rw [State.changeSync_adec]; exact polarity
  · show (s.changeSync t a c).smap.CursorFor _ (s.changeSync t a c).adec.sync
    rw [State.changeSync_adec]
    exact .none (State.changeSync_cursor ha h.positioned t c) ha

/-! ### The apply (R182) -/

/-- A commit that may be applied: its staged image passes every check, and its class is the difference of the images (R180, R183). -/
structure Appliable (k : PendingCommit) (s : State) : Prop where
  cls : k.cls = commitClass s.cfg.active s.cfg.staged
  checked : failedCheck s.cfg.staged = none

/-- R183: what a class below GEOMETRY says of the images. -/
theorem commitClass_polMode {old new : Image} (h : commitClass old new ≠ .geometry) : new.polMode = old.polMode := by
  by_contra hne
  refine h (if_pos ?_)
  have : new.item 3 ≠ old.item 3 := hne
  simp [this]

theorem commitClass_run {old new : Image} (h : commitClass old new = .calibration) :
    new.runStart = old.runStart ∧ new.runEnd = old.runEnd := by
  unfold commitClass at h
  split at h
  · cases h
  · split at h
    · cases h
    · next same => simp only [Bool.or_eq_true, not_or, decide_eq_true_eq, not_not] at same; exact same.1

/-- R31, R34: a cycle angle's slot lies in the run list. -/
theorem Smap.position_for {img : Image} (h : failedCheck img = none) {x : Nat} (hx : x < 11520) {y : SyncState}
    (hy : y = .fullSync) (marks : Vector Bool 6) : Smap.CursorFor ⟨some (img.runStart + x / img.slotLen), marks⟩ img y := by
  obtain ⟨run, low, high⟩ := slots_of_passes h
  refine ⟨by simp [hy], fun r hr => ?_⟩
  cases hr
  have count : img.slots = img.runEnd + 1 - img.runStart := rfl
  have inside : x / img.slotLen < img.slots := by
    rw [Image.slotLen]
    generalize img.slots = n at low high
    interval_cases n <;> simp only [Config.cycleUnits] <;> omega
  generalize x / img.slotLen = d at inside
  omega

theorem Adec.cycleAngle_lt (a : Adec) (img : Image) (t : Stamp) : a.cycleAngle img t < 11520 :=
  Nat.lt_of_le_of_lt ((min_le_right _ _).trans (min_le_right _ _)) (by decide)

/-- R19: what ADEC's part of an apply makes of the polarity. -/
theorem State.applyAdec_polarity {cls : CommitClass} (h : cls ≠ .geometry → s.adec.polarity.AgreesWith s.cfg.staged) (t : Stamp) :
    ((s.setCfg s.cfg.apply).applyAdec t cls s.cfg.active).adec.polarity.AgreesWith s.cfg.staged := by
  obtain ⟨stalled, plain⟩ := s.applyAdec_eq t cls
  have restarted : (if cls = .geometry then (if s.adec.sync = .halted then (s.setCfg s.cfg.apply).setAdec (restartedAdec s) else
      (s.setCfg s.cfg.apply).changeSync t ((restartedAdec s).enterSeek none) .commit) else
      s.setCfg s.cfg.apply).adec.polarity.AgreesWith s.cfg.staged := by
    split
    · split
      · exact polarityFor_agrees _ _
      · rw [State.changeSync_adec]; exact polarityFor_agrees _ _
    · next hc => exact h hc
  by_cases hp : StallPassed t s
  · rw [stalled hp, State.stallNow, State.changeSync_adec]
    have cfg := (s.applyAdec_base t cls).frame.cfg
    rw [cfg]
    exact Adec.enterHalted_polarity restarted
  · rw [plain hp]
    exact restarted

/-- R19, R30: ADEC's part of an apply that changes the sync state leaves the cursor unpositioned. -/
theorem State.applyAdec_cursor {cls : CommitClass} (h : s.smap.cursor.isSome ↔ s.adec.sync = .fullSync) (t : Stamp)
    (hc : cls = .geometry ∨ StallPassed t s) :
    let x := (s.setCfg s.cfg.apply).applyAdec t cls s.cfg.active
    x.smap.cursor = none ∧ x.adec.sync ≠ .fullSync := by
  intro x
  have restarted : let b := if cls = .geometry then (if s.adec.sync = .halted then (s.setCfg s.cfg.apply).setAdec (restartedAdec s)
        else (s.setCfg s.cfg.apply).changeSync t ((restartedAdec s).enterSeek none) .commit) else s.setCfg s.cfg.apply
      (b.smap.cursor.isSome ↔ b.adec.sync = .fullSync) ∧ (cls = .geometry → b.smap.cursor = none ∧ b.adec.sync ≠ .fullSync) := by
    dsimp only
    split
    · split
      · next hs =>
        have out : s.adec.sync ≠ .fullSync := by rw [hs]; decide
        exact ⟨h, fun _ => ⟨by simpa using mt h.mp out, out⟩⟩
      · have gone := State.changeSync_cursor (s := s.setCfg s.cfg.apply) (a := (restartedAdec s).enterSeek none)
          (by simp [Adec.enterSeek]) h t .commit
        rw [State.changeSync_adec, gone]
        exact ⟨by simp [Adec.enterSeek], fun _ => ⟨rfl, by simp [Adec.enterSeek]⟩⟩
    · next ng => exact ⟨h, fun g => absurd g ng⟩
  obtain ⟨stalled, plain⟩ := s.applyAdec_eq t cls
  by_cases hp : StallPassed t s
  · have e : x = _ := stalled hp
    rw [e, State.stallNow, State.changeSync_adec]
    exact ⟨State.changeSync_cursor (by simp [Adec.enterHalted]) restarted.1 t .stall, by simp [Adec.enterHalted]⟩
  · have e : x = _ := plain hp
    rw [e]
    exact restarted.2 (hc.resolve_right hp)

/-- R105, R123 to R126: KNA's part of an apply. -/
theorem State.applyKna_fitsIn {cls : CommitClass} {old : Image} (h : s.kna.FitsIn old) (new : ImageInRange s.cfg.active) :
    (s.applyKna cls old).kna.FitsIn s.cfg.active := by
  have floor := new.floor_le
  have init := new.init_le
  rw [show refCeiling = 2097120 from rfl] at floor init
  refine ⟨fun c => ?_, fun c => ?_, fun σ => ?_⟩
  · have := h.retards c
    rw [State.applyKna_cyl]
    dsimp only
    split
    · exact Nat.zero_le _
    · split <;> omega
  · have := h.refs c
    rw [State.applyKna_cyl]
    dsimp only
    split
    · omega
    · split <;> omega
  · have := h.grefs σ
    rw [State.applyKna_gref]
    split
    · omega
    · split <;> omega

/-- R97: KFE's part of an apply gives every row without auto-range its initial gain. -/
theorem applied_gains {k l : Kfe} {cls : CommitClass} {old new : Image} (h : k.GainsFor old)
    (rows : l.rows = vmapIdx (fun r x => if resetsGain cls old new r then ⟨(new.row r).initGain, 0⟩ else x) k.rows) :
    l.GainsFor new := by
  intro r hr ha
  rw [Kfe.rowGain, rows, vget_vmapIdx _ ⟨.g8, 0⟩ _ _ hr]
  split
  · rfl
  next keeps =>
    rw [resetsGain_iff] at keeps
    push Not at keeps
    obtain ⟨-, init, range⟩ := keeps
    rw [← init]
    refine h r hr ?_
    by_contra on
    exact range (by simpa using on) ha

/-- The apply of an appliable commit keeps every invariant. -/
theorem State.applyCommit_preserves {k : PendingCommit} (base : Preserves s m) (ready : CommitAgrees s → Appliable k m)
    (t : Stamp) : Preserves s (m.applyCommit t k) := by
  have G := applyStages m t k.cls
  have A := G.after
  have F := G.stage.frame
  have act : ((m.setCfg m.cfg.apply).applyAdec t k.cls m.cfg.active).cfg.active = m.cfg.staged := G.act
  have cfg : (m.applyCommit t k).cfg = m.cfg.apply := G.cfg
  have commit : CommitAgrees s → CommitAgrees (m.applyCommit t k) := fun h => by
    refine .of_nothingPending (by rw [cfg]; rfl) ?_
    have agrees := State.applyAdec_polarity (s := m) (cls := k.cls) (fun hc => by
      have old := (base.commit h).polarity
      have mode := commitClass_polMode ((ready h).cls ▸ hc)
      exact ⟨fun e => old.normal (mode ▸ e), fun e => old.inverted (mode ▸ e)⟩) t
    rw [cfg]
    show State.adec (State.applyEffects _ _ _ _) |>.polarity.AgreesWith m.cfg.staged
    rw [A.adec]
    split
    · exact agrees
    · exact agrees
  have images : ImagesAgree s → ImagesAgree (m.applyCommit t k) := fun h => by
    have staged := (base.images h).staged
    refine ⟨commit h.commit, ?_, ?_, ?_⟩ <;> rw [cfg]
    · exact staged
    · exact staged
    · exact (ready h.commit).checked
  refine ⟨base.toFits.trans (m.applyCommit_fits t k), commit, images, fun h => ?_, fun h => ?_, fun h => ?_⟩
  · obtain ⟨retards, refs, grefs⟩ : (m.applyCommit t k).kna.FitsIn m.cfg.staged := by
      show State.kna (State.applyEffects _ _ _ _) |>.FitsIn m.cfg.staged
      rw [A.kna, ← act]
      refine State.applyKna_fitsIn ?_ (by rw [act]; exact (base.images h.images).staged)
      rw [F.kna]
      exact (base.knock h).kna
    rw [← show (m.applyCommit t k).cfg.active = m.cfg.staged by rw [cfg]; rfl] at retards refs grefs
    exact ⟨images h.images, retards, refs, grefs⟩
  · have gains : (m.applyCommit t k).kfe.GainsFor m.cfg.staged := by
      refine applied_gains (k := m.kfe) (base.gains h) (cls := k.cls) ?_
      have rows := A.rows
      rw [act, G.stage.weak.rows] at rows
      exact rows
    rw [← show (m.applyCommit t k).cfg.active = m.cfg.staged by rw [cfg]; rfl] at gains
    exact gains
  · have before := (base.cursor h)
    have passes := (ready h.images.commit).checked
    obtain ⟨positioned, inRun⟩ : (m.applyCommit t k).smap.CursorFor m.cfg.staged (m.applyCommit t k).adec.sync := by
      show Smap.CursorFor (State.applyEffects _ _ _ _).smap _ (State.applyEffects _ _ _ _).adec.sync
      have sync : (State.applyEffects (m.setCfg m.cfg.apply) t k.cls m.cfg.active).adec.sync =
          ((m.setCfg m.cfg.apply).applyAdec t k.cls m.cfg.active).adec.sync := by
        rw [A.adec]
        split <;> rfl
      rw [sync, A.smap, act]
      by_cases hc : k.cls = .geometry ∨ StallPassed t m
      · obtain ⟨gone, out⟩ := State.applyAdec_cursor before.positioned t hc
        refine .none ?_ out
        rw [if_neg out]
        split
        · exact gone
        · split <;> exact gone
      · push Not at hc
        rw [G.plain hc.1 hc.2, if_neg hc.1]
        show Smap.CursorFor (if _ then m.smap else if m.adec.sync = SyncState.fullSync then _ else _) _ m.adec.sync
        split
        next cal =>
          obtain ⟨start, stop⟩ := commitClass_run ((ready h.images.commit).cls ▸ cal)
          exact ⟨before.positioned, by rw [start, stop]; exact before.inRun⟩
        · split
          next full => exact Smap.position_for passes (Adec.cycleAngle_lt _ _ _) full _
          next out => exact .none (by simpa using mt before.positioned.mp out) out
    rw [← show (m.applyCommit t k).cfg.active = m.cfg.staged by rw [cfg]; rfl] at inRun
    exact ⟨images h.images, positioned, inRun⟩

theorem CommitAgrees.appliable {k : PendingCommit} (h : CommitAgrees s) (hk : s.cfg.pendingCommit = some k) : Appliable k s :=
  ⟨h.cls k hk, h.checked (by rw [hk]; rfl)⟩

theorem State.applyPending_preserves (s : State) (t : Stamp) : Preserves s (s.applyPending t) := by
  unfold State.applyPending
  split
  next k hk => exact State.applyCommit_preserves (.refl s) (fun h => h.appliable hk) t
  · exact .refl s

/-- R181: a departure from FULL_SYNC with the apply of the pending commit, or a change outside it. -/
theorem State.changeSyncApply_preserves {a : Adec} (ha : a.sync ≠ .fullSync)
    (polarity : CommitAgrees s → a.polarity.AgreesWith s.cfg.active) (t : Stamp) (c : SyncCause) :
    Preserves s (s.changeSyncApply t a c) := by
  unfold State.changeSyncApply
  split
  next =>
    have cfg := (s.changeSync_frame t a c).1.cfg
    unfold State.applyPending
    split
    next k hk =>
      rw [cfg] at hk
      rw [← State.applyCommit_setAside]
      refine State.applyCommit_preserves (State.changeSync_setAside_preserves ha polarity t c) (fun h => ?_) t
      have own := h.appliable hk
      constructor
      · show k.cls = commitClass (s.changeSync t a c).cfg.active (s.changeSync t a c).cfg.staged
        rw [cfg]; exact own.cls
      · show failedCheck (s.changeSync t a c).cfg.staged = none
        rw [cfg]; exact own.checked
    next hk =>
      rw [cfg] at hk
      exact State.changeSync_preserves ha (fun _ => hk) polarity t c
  next out =>
    exact State.changeSync_preserves ha (fun h => h.nothingPending fun hs => out ⟨hs, ha⟩) polarity t c

end Sys2Proof.Machine
end

section
/-! PROOFS. The seven invariants at the events of the sensor inputs and of the angle clock (chapter 1). -/

namespace Sys2Proof.Machine

variable {s u : State}

/-! ### Edges of the crank signal (R3 to R10) -/

@[simp] theorem Adec.accept_sync (a : Adec) (img : Image) (t : Stamp) : (a.accept img t).sync = a.sync := by
  unfold Adec.accept; split <;> rfl

@[simp] theorem Adec.accept_polarity (a : Adec) (img : Image) (t : Stamp) : (a.accept img t).polarity = a.polarity := by
  unfold Adec.accept; split <;> rfl

@[simp] theorem Adec.tooth_sync (a : Adec) (img : Image) (t : Stamp) (gap : Bool) : (a.tooth img t gap).sync = a.sync := by
  cases gap <;> simp [Adec.tooth, Adec.gapEnd]

@[simp] theorem Adec.tooth_polarity (a : Adec) (img : Image) (t : Stamp) (gap : Bool) :
    (a.tooth img t gap).polarity = a.polarity := by
  cases gap <;> simp [Adec.tooth, Adec.gapEnd]

@[simp] theorem Adec.camCheck_sync (a : Adec) : a.camCheck.sync = a.sync := by unfold Adec.camCheck; split <;> rfl

@[simp] theorem Adec.camCheck_polarity (a : Adec) : a.camCheck.polarity = a.polarity := by
  unfold Adec.camCheck; split <;> rfl

/-- A change of the sync state outside FULL_SYNC that keeps the polarity. -/
theorem State.changeSync_outside {a : Adec} (hs : s.adec.sync ≠ .fullSync) (ha : a.sync ≠ .fullSync)
    (hp : a.polarity = s.adec.polarity) (t : Stamp) (c : SyncCause) : Preserves s (s.changeSync t a c) :=
  State.changeSync_preserves ha (fun h => h.nothingPending hs) (fun h => by rw [hp]; exact h.polarity) t c

theorem State.crankHalted_preserves (hs : s.adec.sync = .halted) (t : Stamp) : Preserves s (s.crankHalted t) := by
  unfold State.crankHalted
  exact State.changeSync_outside (by rw [hs]; decide) (by simp [Adec.enterSeek]) (by simp [Adec.enterSeek]) t _

/-- R8: a verify failure; the polarity flips in mode AUTO alone. -/
theorem State.verifyFailure_preserves {a : Adec} (hs : s.adec.sync ≠ .fullSync) (ha : a.sync = s.adec.sync)
    (hp : a.polarity = s.adec.polarity) (t : Stamp) (v g : Bool) : Preserves s (s.verifyFailure t a v g) := by
  unfold State.verifyFailure
  dsimp only
  split
  · next flips =>
    exact State.changeSync_preserves (by simp [Adec.enterSeek]) (fun h => h.nothingPending hs)
      (fun _ => Polarity.agrees_auto flips.1 _) t _
  · split
    · split
      · exact State.setAdec_preserves ha hp
      · exact State.changeSync_outside hs (by simp [Adec.enterSeek]) (by exact hp) t _
    · exact State.setAdec_preserves ha hp

theorem State.crankSeek_preserves (hs : s.adec.sync = .seek) (t : Stamp) : Preserves s (s.crankSeek t) := by
  have out : s.adec.sync ≠ .fullSync := by rw [hs]; decide
  unfold State.crankSeek
  dsimp only
  split
  · exact State.changeSync_outside out (by simp) (by simp) t _
  · split
    · exact State.verifyFailure_preserves out (by simp) (by simp) t _ _
    · exact State.setAdec_preserves (by simp) (by simp)

/-- What the capture unit takes of a tooth (R165). -/
theorem State.noticePeriod_preserves (s : State) (n : Nat) : Preserves s (s.noticePeriod n) :=
  .of_done (s.noticePeriod_frame n).toDoneFrame (s.noticePeriod_fits n)

theorem State.noticeGapEnd_preserves (s : State) (t : Stamp) : Preserves s (s.noticeGapEnd t) :=
  .of_done (s.noticeGapEnd_frame t).toDoneFrame (s.noticeGapEnd_fits t)

theorem State.crankVerify_preserves (hs : s.adec.sync = .verify) (t : Stamp) : Preserves s (s.crankVerify t) := by
  have out : s.adec.sync ≠ .fullSync := by rw [hs]; decide
  unfold State.crankVerify
  dsimp only
  split
  · split
    · refine Preserves.trans ?_ (State.noticeGapEnd_preserves _ t)
      refine Preserves.trans ?_ (State.noticePeriod_preserves _ _)
      exact State.changeSync_outside out (by simp [Adec.verified]) (by simp [Adec.verified, Adec.gapEnd]) t _
    · exact State.verifyFailure_preserves out (by simp) (by simp) t _ _
  · split
    · exact State.verifyFailure_preserves out (by simp) (by simp) t _ _
    · exact State.setAdec_preserves (by simp) (by simp)

/-! ### The cycle boundary (R15, R16) -/

theorem State.boundaryEvents_preserves (s : State) (t : Stamp) (x : Nat) (moved : Bool) :
    Preserves s (s.boundaryEvents t x moved) := by
  unfold State.boundaryEvents
  refine Preserves.trans ?_ (State.raiseAll_preserves _ _ _ _)
  refine Preserves.trans ?_ (State.raiseAll_preserves _ _ _ _)
  exact State.setAdec_preserves rfl rfl

theorem State.finishBoundary_preserves (s : State) (t : Stamp) (x : Nat) : Preserves s (s.finishBoundary t x) := by
  have applied := s.applyPending_preserves t
  unfold State.finishBoundary
  split
  · exact applied
  · split
    · exact applied.trans (State.boundaryEvents_preserves _ _ _ _)
    · exact applied

theorem State.camDrop_preserves {a : Adec} (hp : a.polarity = s.adec.polarity) (t : Stamp) : Preserves s (s.camDrop t a) :=
  State.changeSyncApply_preserves (by simp [Adec.dropToCrank]) (fun h => by
    rw [show a.dropToCrank.polarity = s.adec.polarity from hp]; exact h.polarity) t _

theorem State.cycleBoundary_preserves (s : State) (t : Stamp) (x : Nat) : Preserves s (s.cycleBoundary t x) := by
  unfold State.cycleBoundary
  split
  · exact State.camDrop_preserves (by simp) t
  · refine Preserves.trans ?_ (State.finishBoundary_preserves _ _ _)
    unfold State.boundaryWork
    refine Preserves.trans ?_ (State.blockBoundary_preserves _ _)
    refine Preserves.trans ?_ (State.setOps_preserves _ _)
    exact State.setAdec_preserves (by simp [Adec.newCycle]) (by simp [Adec.newCycle])

theorem State.toothResults_preserves (s : State) (t : Stamp) (gap : Bool) : Preserves s (s.toothResults t gap) := by
  have taken : Preserves s (s.setAdec (s.adec.tooth s.cfg.active t gap)) := State.setAdec_preserves (by simp) (by simp)
  have told : Preserves s (if gap then (s.setAdec (s.adec.tooth s.cfg.active t gap)).noticeGapEnd t
      else s.setAdec (s.adec.tooth s.cfg.active t gap)) := by
    split; exacts [taken.trans (State.noticeGapEnd_preserves _ t), taken]
  unfold State.toothResults
  dsimp only
  split
  · split
    · exact told.trans (State.cycleBoundary_preserves _ _ _)
    · exact told.trans (State.reachAngle_preserves _ _ _)
  · exact told

theorem State.crankInSync_preserves (s : State) (t : Stamp) : Preserves s (s.crankInSync t) := by
  unfold State.crankInSync
  dsimp only
  split
  · exact State.setAdec_preserves rfl rfl
  · have taken := s.noticePeriod_preserves (s.adec.accept s.cfg.active t).period
    have f := s.noticePeriod_frame (s.adec.accept s.cfg.active t).period
    split
    · exact taken.trans (State.toothResults_preserves _ _ _)
    · refine taken.trans (State.changeSyncApply_preserves (by simp [Adec.enterSeek]) (fun h => ?_) t _)
      have agrees := h.polarity
      rw [f.adec] at agrees
      simpa [Adec.enterSeek] using agrees

theorem State.crankTooth_preserves (s : State) (t : Stamp) : Preserves s (s.crankTooth t) := by
  unfold State.crankTooth
  split
  · next h => exact State.crankHalted_preserves h t
  · next h => exact State.crankSeek_preserves h t
  · next h => exact State.crankVerify_preserves h t
  · exact s.crankInSync_preserves t
  · exact s.crankInSync_preserves t

/-! ### Edges of the cam signal (R14, R15) -/

theorem camPhase_lt {img : Image} {a x : Nat} (h : camPhase img a = some x) (ha : a < 5760) : x < 11520 := by
  unfold camPhase at h
  split at h
  · cases h; omega
  · split at h
    · cases h; simp only [Config.revUnits]; omega
    · cases h

theorem Adec.revAngle_lt (a : Adec) (img : Image) (t : Stamp) : a.revAngle img t < 5760 :=
  Nat.lt_of_le_of_lt ((min_le_right _ _).trans (min_le_right _ _)) (by decide)

theorem State.camInCrank_preserves (hs : s.adec.sync = .crankSync) (t : Stamp) : Preserves s (s.camInCrank t) := by
  have out : s.adec.sync ≠ .fullSync := by rw [hs]; decide
  unfold State.camInCrank
  dsimp only
  split
  next x hx =>
    refine Preserves.trans ?_ (.of_done (State.noticeFullSync_frame _ t).toDoneFrame (State.noticeFullSync_fits _ t))
    have f := (s.changeSync_frame t (s.adec.enterFull s.cfg.active (s.adec.revAngle s.cfg.active t) x) .camPhase).1
    have a := s.changeSync_adec t (s.adec.enterFull s.cfg.active (s.adec.revAngle s.cfg.active t) x) .camPhase
    refine .of_sync ((s.changeSync_fits t _ _).trans (.of_eq rfl rfl)) ?_ ?_ (fun h => ?_) (fun h => ?_) f.kna
      (s.changeSync_kept t _ _).1.rows fun h => ?_
    · show (State.changeSync _ _ _ _).cfg.active = _; rw [f.cfg]
    · show (State.changeSync _ _ _ _).cfg.staged = _; rw [f.cfg]
    · show (State.changeSync _ _ _ _).cfg.pendingCommit = _
      rw [f.cfg]; exact h.nothingPending out
    · show (State.changeSync _ _ _ _).adec.polarity.AgreesWith _
      rw [a]; exact h.polarity
    · show Smap.CursorFor ⟨some ((State.changeSync _ _ _ _).cfg.active.runStart + x / (State.changeSync _ _ _ _).cfg.active.slotLen), _⟩
        _ (State.changeSync _ _ _ _).adec.sync
      rw [f.cfg, a]
      exact Smap.position_for h.images.passes (camPhase_lt hx (Adec.revAngle_lt _ _ _)) rfl _
  · exact State.setAdec_preserves rfl rfl

theorem State.camInFull_preserves (s : State) (t : Stamp) : Preserves s (s.camInFull t) := by
  unfold State.camInFull
  dsimp only
  split
  · exact State.setAdec_preserves rfl rfl
  · split
    · exact .refl s
    · split
      · exact State.camDrop_preserves (a := s.adec.countCamFault) rfl t
      · exact State.setAdec_preserves rfl rfl

theorem State.camSelectedEdge_preserves (s : State) (t : Stamp) : Preserves s (s.camSelectedEdge t) := by
  unfold State.camSelectedEdge
  split
  · next h => exact State.camInCrank_preserves h t
  · exact s.camInFull_preserves t
  all_goals exact .refl s

/-! ### The other sensor events -/

/-- An event that reaches the part keeps the invariants when its act does. -/
theorem onEvent_preserves {act : State → State} (h : ∀ x, Preserves x (act x)) (t : Stamp) (s : State) :
    Preserves s (onEvent t act s) := by
  unfold onEvent
  split
  · have arrived : Preserves s (s.arrive t) := .of_eq rfl rfl rfl rfl rfl rfl rfl
    exact arrived.trans (h _)
  · exact .refl s

theorem State.stall_preserves (s : State) (t : Stamp) :
    Preserves s (if s.stallDue t then s.changeSyncApply t (s.adec.enterHalted s.cfg.active) .stall else s) := by
  split
  · exact State.changeSyncApply_preserves (by simp [Adec.enterHalted])
      (fun h => Adec.enterHalted_polarity h.polarity) t _
  · exact .refl s

theorem State.igsFall_preserves (s : State) (t : Stamp) (n : Cyl) : Preserves s (s.igsFall t n) := by
  unfold State.igsFall
  split
  · exact .of_eq rfl rfl rfl rfl rfl rfl rfl
  · exact .refl s

theorem State.mergeOps_preserves (s : State) : Preserves s s.mergeOps := s.setOps_preserves _

theorem State.setDecl_preserves (s : State) (p : Port) (d : Option Declaration) : Preserves s (s.setDecl p d) :=
  (s.setOps_preserves _).trans (State.mergeOps_preserves _)

end Sys2Proof.Machine
end

section
/-! PROOFS. The seven invariants at the commands of the ports (chapters 9 to 11). -/

namespace Sys2Proof.Machine

variable {s u : State}

/-! ### Taking a request (R184, R185) -/

/-- A port's own fields but its queue. -/
theorem State.setPort_preserves {p : Port} {x : PortState}
    (hx : (s.ports.get p).queue.length ≤ 128 → x.queue.length ≤ 128) : Preserves s (s.setPort p x) :=
  .of_done (s.setPort_frame p x).toDoneFrame (State.setPort_fits hx)

theorem takeRequest_preserves {serve : State → State × Response} (h : ∀ x, Preserves x (serve x).1) (t : Stamp) (p : Port)
    (s : State) : Preserves s (takeRequest t p serve s) := by
  refine onEvent_preserves (fun x => ?_) t s
  split
  · exact .refl x
  · exact State.setPort_preserves id
  · refine Preserves.trans ?_ (State.setPort_preserves id)
    have taken : Preserves x (x.takeSelection p t) := State.setPort_preserves id
    exact taken.trans (h _)

theorem ofLength_preserves {serve : State → State × Response} (h : ∀ x, Preserves x (serve x).1) (n : Nat) (pl : List Byte)
    (s : State) : Preserves s (ofLength n pl serve s).1 := by
  unfold ofLength
  split
  · exact .refl s
  · split
    · exact h s
    · exact .refl s

/-- A command of one payload length keeps the invariants when what serves it does. -/
theorem request_preserves {serve : State → State × Response} (h : ∀ x, Preserves x (serve x).1) (t : Stamp) (p : Port)
    (n : Nat) (pl : List Byte) (s : State) : Preserves s (takeRequest t p (ofLength n pl serve) s) :=
  takeRequest_preserves (ofLength_preserves h n pl) t p s

theorem serveReadRows_state (pl : List Byte) (s : State) : (serveReadRows pl s).1 = s := by
  unfold serveReadRows; dsimp only; split <;> rfl

theorem serveReadCylinder_state (pl : List Byte) (s : State) : (serveReadCylinder pl s).1 = s := by
  unfold serveReadCylinder; split <;> rfl

theorem serveReadImage_state (i : Nat) (pick : Cfg → Image) (pl : List Byte) (s : State) :
    (serveReadImage i pick pl s).1 = s := by
  unfold serveReadImage; split <;> rfl

theorem Preserves.of_state (h : u = s) : Preserves s u := h ▸ .refl s

/-! ### The port's own commands (R149 to R151, R188) -/

theorem serveSetAlertMask_preserves (p : Port) (pl : List Byte) (s : State) : Preserves s (serveSetAlertMask p pl s).1 := by
  unfold serveSetAlertMask
  split
  · exact .refl s
  · exact State.setPort_preserves id

theorem serveClearAlerts_preserves (p : Port) (pl : List Byte) (s : State) : Preserves s (serveClearAlerts p pl s).1 := by
  unfold serveClearAlerts
  split
  · exact .refl s
  · exact State.setPort_preserves id

theorem serveSubscribe_preserves (p : Port) (pl : List Byte) (s : State) : Preserves s (serveSubscribe p pl s).1 := by
  unfold serveSubscribe
  split
  · exact State.setPort_preserves id
  · exact .refl s

theorem serveFetchRecords_preserves (p : Port) (pl : List Byte) (s : State) : Preserves s (serveFetchRecords p pl s).1 := by
  unfold serveFetchRecords
  dsimp only
  split
  · exact .refl s
  · split
    · exact .refl s
    · refine State.setPort_preserves fun h => ?_
      show (List.drop _ (s.ports.get p).queue).length ≤ 128
      rw [List.length_drop]
      omega

theorem serveClearQueue_preserves (p : Port) (s : State) : Preserves s (serveClearQueue p s).1 :=
  State.setPort_preserves fun _ => Nat.zero_le _

/-! ### Operating state and retards (R46, R121) -/

theorem serveDeclareState_preserves (p : Port) (pl : List Byte) (s : State) : Preserves s (serveDeclareState p pl s).1 := by
  unfold serveDeclareState
  split
  · exact .refl s
  · exact s.setDecl_preserves _ _

theorem Kna.resetRetard_fits {k : Kna} {img : Image} (h : k.FitsIn img) (mask : Nat) : (k.resetRetard mask).FitsIn img := by
  refine ⟨fun c => ?_, fun c => ?_, h.grefs⟩ <;> simp only [Kna.resetRetard, PerCyl.get_mapWith] <;> split
  · exact Nat.zero_le _
  · exact h.retards c
  · exact h.refs c
  · exact h.refs c

theorem serveRetardReset_preserves (pl : List Byte) (s : State) : Preserves s (serveRetardReset pl s).1 := by
  unfold serveRetardReset
  dsimp only
  split
  · exact .refl s
  · have reset : Preserves s (s.setKna (s.kna.resetRetard (u8 pl 0))) :=
      State.setKna_preserves fun h => Kna.resetRetard_fits h.kna _
    exact reset.trans (State.modCyt_preserves _ fun y => y.resetRetard (u8 pl 0))

/-! ### Freeing the memory (R156, R169 to R171, R174) -/

/-- The ACTIVE request of an agreeing unit (R156, R157). -/
theorem Cap.Listed.activeRequest {c : Cap} (h : c.Listed) {r : Request} (ha : c.activeRequest = some r) :
    r ∈ c.requests ∧ r.state = .active ∧ c.active = some r.handle := by
  unfold Cap.activeRequest at ha
  split at ha
  next a hact =>
    have hm := List.mem_of_find?_eq_some ha
    have hh : r.handle = a := by simpa using List.find?_some ha
    obtain ⟨q, hq, hqa, hs⟩ := h.named a hact
    rw [h.list.only hq hm (hqa.trans hh.symm)] at hs
    exact ⟨hm, hs, by rw [hact, hh]⟩
  · cases ha

theorem Cap.Listed.activeRequest_of_active {c : Cap} (h : c.Listed) {r : Request} (hr : r ∈ c.requests)
    (ha : r.state = .active) : c.activeRequest = some r := by
  rw [Cap.activeRequest, h.active r hr ha]
  exact find_handle h.list.distinct hr

/-- Only one request is ACTIVE (R157). -/
theorem Cap.Listed.active_only {c : Cap} (h : c.Listed) {q r : Request} (hq : q ∈ c.requests) (hr : r ∈ c.requests)
    (ha : q.state = .active) (hb : r.state = .active) : q = r := by
  have a := h.active q hq ha
  rw [h.active r hr hb] at a
  exact h.list.only hq hr (Option.some.inj a).symm

/-- R170, R171: the memory is freed and its request leaves the list. -/
theorem Cap.Listed.dropActive {c : Cap} (h : c.Listed) {r : Request} (hr : r ∈ c.requests) (ha : r.state = .active) :
    (c.freeMemory.removeRequest r.handle).Listed :=
  h.freed (h.list.filter _) fun q hq hs => by
    obtain ⟨hm, ne⟩ := List.mem_filter.mp hq
    rw [h.active_only hm hr hs ha] at ne
    simp at ne

theorem State.expireHold_fits (s : State) (t : Stamp) : Fits s (s.expireHold t) := by
  unfold State.expireHold
  split
  · exact .refl s
  next r hr =>
    have told := s.emitCapture_fits t r .expired
    refine ⟨fun q => State.grant_queues _ t ((told.queues q).congr rfl), fun c => State.grant_agrees ?_ t⟩
    obtain ⟨hm, ha, -⟩ := c.listed.activeRequest hr
    rw [State.modCap_cap, State.emitCapture_cap]
    exact c.listed.dropActive hm ha

theorem State.expireHold_frame (s : State) (t : Stamp) : CapFrame s (s.expireHold t) := by
  unfold State.expireHold
  split
  · exact .refl s
  · exact ((State.emitCapture_frame _ _ _ _).toCapFrame.trans (State.modCap_frame _ _)).trans (State.grant_frame _ _)

theorem State.expireHold_preserves (s : State) (t : Stamp) : Preserves s (s.expireHold t) :=
  .of_done (s.expireHold_frame t).toDoneFrame (s.expireHold_fits t)

/-- R171: a request that is not ACTIVE leaves the list. -/
theorem State.removeIdle_fits {r : Request} (h : CaptureAgrees s → r ∈ s.cap.requests) (ha : r.state ≠ .active) :
    Fits s (s.modCap fun c => c.removeRequest r.handle) := by
  refine ⟨fun q => q.congr rfl, fun c => ?_⟩
  refine Cap.Listed.agrees (c.listed.filter fun q hq hs => ?_) fun hf q hq => c.granted hf q (List.mem_of_mem_filter hq)
  by_contra same
  simp only [decide_eq_true_eq, not_not] at same
  rw [c.listed.list.only hq (h c) same] at hs
  exact ha hs

theorem serveCaptureCancel_preserves {r : Request} (h : r ∈ s.cap.requests) (t : Stamp) :
    Preserves s (serveCaptureCancel t r s).1 := by
  unfold serveCaptureCancel
  dsimp only
  split
  · next ha =>
    have told := s.emitCapture_fits t r .cancelled
    refine .of_done (((State.emitCapture_frame _ _ _ _).toCapFrame.trans (State.modCap_frame _ _)).trans
      (State.grant_frame _ _)).toDoneFrame
        ⟨fun q => State.grant_queues _ t ((told.queues q).congr rfl), fun c => State.grant_agrees ?_ t⟩
    rw [State.modCap_cap, State.emitCapture_cap]
    exact c.listed.dropActive h ha
  · next ha => exact .of_done (s.modCap_frame _).toDoneFrame (State.removeIdle_fits (fun _ => h) ha)

theorem serveCaptureRelease_preserves {r : Request} (h : r ∈ s.cap.requests) (t : Stamp) :
    Preserves s (serveCaptureRelease t r s).1 := by
  unfold serveCaptureRelease
  split
  · exact .refl s
  next held =>
    have ha : r.state = .active := by
      simp only [State.holds, Bool.not_eq_true', Bool.not_eq_false, Bool.and_eq_true, decide_eq_true_eq] at held
      exact held.1
    refine .of_done ((s.modCap_frame _).trans (State.grant_frame _ t)).toDoneFrame (State.modCap_grant_fits (fun c => ?_) t)
    have L := c.listed
    unfold Cap.release
    split
    · exact L.dropActive h ha
    · refine L.freed ?_ ?_
      · refine L.list.map (fun q => ?_) (fun q => ?_) (fun q hq => ?_) (fun q hq => ?_) <;> split
        · exact (q.rearm_fields _).1
        · rfl
        · exact (q.rearm_fields _).2.1
        · rfl
        · exact q.rearm_latches _
        · exact L.list.latches q hq
        · exact q.rearm_waits _
        · exact L.list.waits q hq
      · rintro _ hq
        obtain ⟨q, hm, rfl⟩ := List.mem_map.mp hq
        split
        · exact q.rearm_active _
        next ne => exact fun hs => ne (by rw [L.active_only hm h hs ha])

theorem onHandle_preserves {serve : Request → State → State × Response} (p : Port) (pl : List Byte)
    (h : ∀ x r, r ∈ x.cap.requests → Preserves x (serve r x).1) (s : State) : Preserves s (onHandle p pl serve s).1 := by
  unfold onHandle
  split
  · exact .refl s
  · split
    · exact .refl s
    next r hr => exact h s r (List.mem_of_find?_eq_some hr)

theorem serveCaptureRead_state (pl : List Byte) (r : Request) (s : State) : (serveCaptureRead pl r s).1 = s := by
  unfold serveCaptureRead
  dsimp only
  split
  · rfl
  · split <;> rfl

/-- R174: a port's requests leave the list, with the memory when one of them is ACTIVE. -/
theorem Cap.Listed.portReset {c : Cap} (h : c.Listed) (p : Port) : (c.portReset p).Listed := by
  have mine : c.owner = some p ↔ ∃ r ∈ c.requests, r.state = .active ∧ r.port = p := by
    constructor
    · intro ho
      obtain ⟨r, hr, hp⟩ := Option.map_eq_some_iff.mp ho
      obtain ⟨hm, ha, -⟩ := h.activeRequest hr
      exact ⟨r, hm, ha, hp⟩
    · rintro ⟨r, hm, ha, hp⟩
      rw [Cap.owner, h.activeRequest_of_active hm ha, Option.map_some, hp]
  unfold Cap.portReset
  dsimp only
  split
  next ho =>
    obtain ⟨r, hr, ha, hp⟩ := mine.mp ho
    refine h.freed (h.list.filter _) fun q hq hs => ?_
    obtain ⟨hm, ne⟩ := List.mem_filter.mp hq
    rw [h.active_only hm hr hs ha, hp] at ne
    simp at ne
  next ho =>
    refine h.filter fun q hq hs => ?_
    by_contra same
    simp only [decide_eq_true_eq, not_not] at same
    exact ho (mine.mpr ⟨q, hq, hs, same⟩)

theorem servePortReset_preserves (t : Stamp) (p : Port) (s : State) : Preserves s (servePortReset t p s).1 := by
  unfold servePortReset
  dsimp only
  refine Preserves.trans ?_ (State.setPort_preserves id)
  refine Preserves.trans ?_ (State.setDecl_preserves _ _ _)
  have emptied : Preserves s (s.setPort p (s.port p).resetRecords) := State.setPort_preserves fun _ => Nat.zero_le _
  refine emptied.trans (.of_done ((State.modCap_frame _ _).trans (State.grant_frame _ t)).toDoneFrame ?_)
  exact State.modCap_grant_fits (fun c => c.listed.portReset p) t

/-! ### CAPTURE_REQUEST and MARK (R158, R159, R161) -/

/-- The handles from `h` on, numbered from 0. -/
theorem handleAfter_iterate {h : Nat} (h1 : 1 ≤ h) (h2 : h ≤ 255) (i : Nat) : handleAfter^[i] h = (h - 1 + i) % 255 + 1 := by
  induction i with
  | zero => simp only [Function.iterate_zero, id_eq]; omega
  | succ i ih => rw [Function.iterate_succ_apply', ih, handleAfter]; split <;> omega

/-- R159: when the search of `k` numbers ends on a taken handle, every number from `h` on was taken. -/
theorem Cap.freeFrom_taken {c : Cap} {k h : Nat} (ht : c.taken (c.freeFrom k h) = true) :
    ∀ i ≤ k, c.taken (handleAfter^[i] h) = true := by
  induction k generalizing h with
  | zero => intro i hi; rw [Nat.le_zero.mp hi]; exact ht
  | succ k ih =>
    unfold Cap.freeFrom at ht
    split at ht
    next first =>
      intro i hi
      cases i with
      | zero => exact first
      | succ i => rw [Function.iterate_succ_apply]; exact ih ht i (Nat.le_of_succ_le_succ hi)
    next free => exact absurd ht free

/-- R159: six requests at most hold handles, so that the search finds a free one. -/
theorem Cap.newHandle_free {c : Cap} (next : 1 ≤ c.nextHandle ∧ c.nextHandle ≤ 255) (six : c.requests.length ≤ 6) :
    ∀ r ∈ c.requests, r.handle ≠ c.newHandle := by
  intro r hr same
  have taken : c.taken c.newHandle = true := List.any_eq_true.mpr ⟨r, hr, by simpa using same⟩
  have all := Cap.freeFrom_taken taken
  have inj : Function.Injective fun i : Fin 8 => handleAfter^[(i : Nat)] c.nextHandle := by
    intro i j e
    simp only [handleAfter_iterate next.1 next.2] at e
    omega
  have sub : (Finset.univ.image fun i : Fin 8 => handleAfter^[(i : Nat)] c.nextHandle) ⊆
      (c.requests.map (·.handle)).toFinset := by
    intro h hh
    obtain ⟨i, -, rfl⟩ := Finset.mem_image.mp hh
    obtain ⟨q, hq, e⟩ := List.any_eq_true.mp (all i (by omega))
    exact List.mem_toFinset.mpr (List.mem_map.mpr ⟨q, hq, by simpa using e⟩)
  have count := (Finset.card_le_card sub).trans (List.toFinset_card_le _)
  rw [Finset.card_image_of_injective _ inj, Finset.card_univ, Fintype.card_fin, List.length_map] at count
  omega

/-- What a CAPTURE_REQUEST payload places: a WAITING request of the port with nothing latched and some condition named (R158). -/
theorem requestOf_fields {p : Port} {pl : List Byte} {r : Request} (h : requestOf p pl = some r) :
    r.port = p ∧ r.latched = 0 ∧ r.state = .waiting ∧ r.named ≠ 0 := by
  unfold requestOf at h
  split at h
  · split at h
    · split at h
      · cases h
      next fits =>
        cases h
        simp only [conditionsFit, Bool.or_eq_true, not_or, Bool.not_eq_true', Bool.not_eq_false, Bool.and_eq_true,
          decide_eq_true_eq] at fits
        exact ⟨rfl, rfl, rfl, fits.2.1⟩
    · cases h
  · cases h

/-- R159: an accepted request at the newest end of the list. -/
theorem Cap.Listed.accept {c : Cap} (h : c.Listed) {p : Port} {pl : List Byte} {r : Request} (hr : requestOf p pl = some r)
    (room : c.atLimit p = false) (conds : Byte) :
    Cap.Listed { c with requests := c.requests ++ [Request.latch conds { r with handle := c.newHandle }],
                        nextHandle := handleAfter c.newHandle } := by
  obtain ⟨port, latched, state, named⟩ := requestOf_fields hr
  simp only [Cap.atLimit, Bool.or_eq_false_iff, decide_eq_false_iff_not, not_le] at room
  have fresh := Cap.newHandle_free h.next h.list.six
  have range := Cap.newHandle_range h.next.1 h.next.2
  have idle : (Request.latch conds { r with handle := c.newHandle }).state ≠ .active := by
    rw [ne_eq, Request.latch_active]; simp [state]
  refine ⟨h.mem, handleAfter_range range.1 range.2, ⟨?_, fun q => ?_, ?_, ?_, ?_, ?_⟩, h.free, fun a ha => ?_, ?_⟩
  · simpa using room.1
  · rw [List.filter_append, List.length_append]
    by_cases hq : p = q
    · have two := room.2
      rw [List.countP_eq_length_filter, hq] at two
      have one : (List.filter (fun r => decide (r.port = q)) [Request.latch conds { r with handle := c.newHandle }]).length ≤ 1 :=
        List.length_filter_le _ _
      omega
    · have none : List.filter (fun r => decide (r.port = q)) [Request.latch conds { r with handle := c.newHandle }] = [] := by
        simp [port, hq]
      rw [none]
      exact h.list.two q
  · rw [List.map_append]
    refine h.list.distinct.append (by simp) ?_
    simp only [List.map_cons, List.map_nil, Request.latch_handle, List.disjoint_singleton, List.mem_map, not_exists, not_and]
    exact fresh
  all_goals simp only [List.mem_append, List.mem_singleton]
  · rintro q (hq | rfl)
    · exact h.list.range q hq
    · simpa using range
  · rintro q (hq | rfl)
    · exact h.list.latches q hq
    · exact Request.latch_latches (by simp [latched]) conds
  · rintro q (hq | rfl)
    · exact h.list.waits q hq
    · exact Request.latch_waits (by simpa [latched, state] using Ne.symm named) conds
  · obtain ⟨q, hq, e⟩ := h.named a ha
    exact ⟨q, .inl hq, e⟩
  · rintro q (hq | rfl) hs
    · exact h.active q hq hs
    · exact absurd hs idle

theorem serveCaptureRequest_preserves (t : Stamp) (p : Port) (pl : List Byte) (s : State) :
    Preserves s (serveCaptureRequest t p pl s).1 := by
  unfold serveCaptureRequest
  split
  · exact .refl s
  next r hr =>
    split
    · exact .refl s
    next room =>
      refine .of_done ((State.modCap_frame _ _).trans (State.grant_frame _ t)).toDoneFrame ?_
      exact State.modCap_grant_fits (fun c => c.listed.accept hr (by simpa using room) _) t

theorem serveMark_preserves (t : Stamp) (p : Port) (s : State) : Preserves s (serveMark t p s).1 :=
  .of_done (s.latchAll_frame t _).toDoneFrame (s.latchAll_fits t _)

end Sys2Proof.Machine
end

section
/-! PROOFS. The seven invariants at the staging writes and at COMMIT (chapter 10), at the reset state, and at every step: O53 to O60. -/

namespace Sys2Proof.Machine

variable {s u : State}

/-! ### Staged values lie in their ranges (R38, R176, R177) -/

theorem ImageInRange.setItem {img : Image} (h : ImageInRange img) {k v : Nat} (hv : itemInRange k v = true) :
    ImageInRange (img.setItem k v) := by
  refine ⟨fun i h1 h2 => ?_, h.rows, h.misfireA, h.misfireB, h.knockA, h.knockB⟩
  show itemInRange i (vget 0 (vset img.items (k - 1) v) (i - 1)) = true
  by_cases e : i - 1 = k - 1
  · rw [e, vget_vset_same _ _ _ (by omega)]
    obtain rfl | rfl : k = i ∨ k = 0 := by omega
    · exact hv
    · simp [itemInRange, itemBounds] at hv; omega
  · rw [vget_vset_ne _ _ _ e]
    exact h.items i h1 h2

theorem within_eq_some {lo hi v x : Nat} (h : within lo hi v = some x) : lo ≤ x ∧ x ≤ hi := by
  unfold within at h
  split at h
  · next fits => cases h; exact fits
  · cases h

/-- R25, R38: a written field lies in its range, and the others stay. -/
theorem Row.write_inRange {r q : Row} (h : r.inRange = true) {field v : Nat} (hw : r.write field v = some q) :
    q.inRange = true := by
  unfold Row.write at hw
  simp only [Row.inRange, Bool.and_eq_true, Bool.or_eq_true, decide_eq_true_eq] at h ⊢
  split at hw
  case h_6 =>
    split at hw
    · cases hw; simp_all
    · obtain ⟨x, hx, rfl⟩ := Option.map_eq_some_iff.mp hw
      have := within_eq_some hx
      simp_all
  case h_9 => cases hw
  all_goals
    obtain ⟨x, hx, rfl⟩ := Option.map_eq_some_iff.mp hw
  case h_3 | h_4 | h_5 =>
    have := within_eq_some hx
    simp_all
  all_goals exact h

theorem ImageInRange.writeRows {img new : Image} (h : ImageInRange img) {mask field v : Nat}
    (hw : img.writeRows mask field v = some new) : ImageInRange new := by
  unfold Image.writeRows at hw
  split at hw
  · cases hw
  · cases hw
    refine ⟨h.items, fun r hr => ?_, h.misfireA, h.misfireB, h.knockA, h.knockB⟩
    have own : (vget (defaultRow .c1 .ks0 false) img.rows r).inRange = true := h.rows r hr
    rw [Image.row, vget_vmapIdx _ (defaultRow .c1 .ks0 false) _ _ hr]
    split
    · cases hq : (vget (defaultRow .c1 .ks0 false) img.rows r).write field v with
      | none => exact own
      | some q => exact Row.write_inRange own hq
    · exact own

theorem mem_vmapIdx {α β : Type} {n : Nat} {f : Nat → α → β} {v : Vector α n} {y : β} (h : y ∈ (vmapIdx f v).toList) :
    ∃ i, ∃ x ∈ v.toList, y = f i x := by
  obtain ⟨i, hi, rfl⟩ := List.mem_mapIdx.mp (show y ∈ v.toList.mapIdx f from h)
  exact ⟨i, _, List.getElem_mem hi, rfl⟩

/-- A table whose entries are the old ones or the written value. -/
theorem table_inRange {n lo hi v : Nat} {l : Vector Nat n} {f : Nat → Nat → Nat} (h : ∀ x ∈ l.toList, lo ≤ x ∧ x ≤ hi)
    (hv : lo ≤ v ∧ v ≤ hi) (hf : ∀ i x, f i x = v ∨ f i x = x) : ∀ y ∈ (vmapIdx f l).toList, lo ≤ y ∧ y ≤ hi := by
  intro y hy
  obtain ⟨i, x, hx, rfl⟩ := mem_vmapIdx hy
  obtain e | e := hf i x <;> rw [e]
  · exact hv
  · exact h x hx

theorem ImageInRange.writeTable {img new : Image} (h : ImageInRange img) {table speed load v : Nat}
    (hw : img.writeTable table speed load v = some new) : ImageInRange new := by
  have chosen : ∀ (c : Nat → Bool) (i x : Nat), (if c i then v else x) = v ∨ (if c i then v else x) = x := by
    intro c i x; split; exacts [.inl rfl, .inr rfl]
  obtain ⟨items, rows, misfireA, misfireB, knockA, knockB⟩ := h
  unfold Image.writeTable at hw
  split at hw
  · cases hw
  · split at hw
    case h_5 => cases hw
    all_goals
      split at hw
      case isFalse => cases hw
    case h_1.isTrue fits => cases hw; exact ⟨items, rows, table_inRange misfireA fits.2.2 (chosen _), misfireB, knockA, knockB⟩
    case h_2.isTrue fits => cases hw; exact ⟨items, rows, misfireA, table_inRange misfireB fits.2.2 (chosen _), knockA, knockB⟩
    case h_3.isTrue fits => cases hw; exact ⟨items, rows, misfireA, misfireB, table_inRange knockA fits.2 (chosen _), knockB⟩
    case h_4.isTrue fits => cases hw; exact ⟨items, rows, misfireA, misfireB, knockA, table_inRange knockB fits.2 (chosen _)⟩

/-! ### The configuration commands (R175 to R181) -/

/-- A change of the configuration stage that keeps the active image: a new staged image, and nothing or an appliable commit pending. -/
theorem Preserves.of_staged {c : Cfg} (active : c.active = s.cfg.active)
    (commit : CommitAgrees s → CommitAgrees (s.setCfg c))
    (staged : ImagesAgree s → ImageInRange c.staged) : Preserves s (s.setCfg c) := by
  have images : ImagesAgree s → ImagesAgree (s.setCfg c) := fun h =>
    ⟨commit h.commit, by rw [State.setCfg_cfg, active]; exact h.active, staged h, by rw [State.setCfg_cfg, active]; exact h.passes⟩
  refine ⟨.of_eq rfl rfl, commit, images, fun h => ⟨images h.images, ?_, ?_, ?_⟩, fun h => ?_, fun h => ⟨images h.images, h.positioned, ?_⟩⟩
  all_goals
    try rw [State.setCfg_cfg, active]
  · exact h.retards
  · exact h.refs
  · exact h.grefs
  · show Kfe.GainsFor s.kfe c.active
    rw [active]; exact h
  · exact h.inRun

/-- R175: a staging write while nothing is pending. -/
theorem State.stage_preserves {img : Image} (idle : s.cfg.pendingCommit = none)
    (h : ImageInRange s.cfg.staged → ImageInRange img) (p : Port) : Preserves s (s.stage p img) :=
  .of_staged rfl (fun c => .of_nothingPending idle c.polarity) fun i => h i.staged

theorem unlessPending_preserves {serve : State → State × Response}
    (h : ∀ x : State, x.cfg.pendingCommit = none → Preserves x (serve x).1) (s : State) :
    Preserves s (unlessPending serve s).1 := by
  unfold unlessPending
  split
  · exact .refl s
  next idle => exact h s (by simpa using idle)

theorem serveStageRows_preserves (idle : s.cfg.pendingCommit = none) (p : Port) (pl : List Byte) :
    Preserves s (serveStageRows p pl s).1 := by
  unfold serveStageRows
  split
  · exact .refl s
  next img hw => exact State.stage_preserves idle (fun h => h.writeRows hw) p

theorem serveStageGlobal_preserves (idle : s.cfg.pendingCommit = none) (p : Port) (pl : List Byte) :
    Preserves s (serveStageGlobal p pl s).1 := by
  unfold serveStageGlobal
  dsimp only
  split
  next hv => exact State.stage_preserves idle (fun h => h.setItem hv) p
  · exact .refl s

theorem serveStageTable_preserves (idle : s.cfg.pendingCommit = none) (p : Port) (pl : List Byte) :
    Preserves s (serveStageTable p pl s).1 := by
  unfold serveStageTable
  split
  · exact .refl s
  next img hw => exact State.stage_preserves idle (fun h => h.writeTable hw) p

theorem serveDiscard_preserves (s : State) : Preserves s (serveDiscard s).1 :=
  .of_staged rfl (fun c => .of_nothingPending rfl c.polarity) fun i => i.active

theorem serveCommit_preserves (t : Stamp) (p : Port) (pl : List Byte) (s : State) : Preserves s (serveCommit t p pl s).1 := by
  unfold serveCommit
  split
  · exact .refl s
  · split
    · exact .refl s
    · split
      · exact .refl s
      next timing _ _ _ passes =>
        dsimp only
        unfold State.acceptCommit
        split
        next waits =>
          refine .of_staged rfl (fun c => ?_) fun i => i.staged
          refine ⟨fun _ => waits.2, ?_, ?_, fun _ => passes, c.normal, c.inverted⟩
          · rintro k ⟨⟩; exact waits.1
          · rintro k ⟨⟩; rfl
        next => exact State.applyCommit_preserves (.refl s) (fun _ => ⟨rfl, passes⟩) t

/-! ### The reset state (R190, section 10.1) -/

theorem defaultImage_inRange : ImageInRange defaultImage where
  items k h1 h2 := by
    have all : ∀ i : Fin 33, itemInRange (i + 1) (defaultImage.item (i + 1)) = true := by decide
    simpa [Nat.sub_add_cancel h1] using all ⟨k - 1, by omega⟩
  rows r h := by
    have all : ∀ i : Fin 12, (defaultImage.row i).inRange = true := by decide
    exact all ⟨r, h⟩
  misfireA v hv := by
    rw [List.eq_of_mem_replicate (n := 64) (b := v) (a := 600) (by simpa [defaultImage] using hv)]; decide
  misfireB v hv := by
    rw [List.eq_of_mem_replicate (n := 64) (b := v) (a := 1800) (by simpa [defaultImage] using hv)]; decide
  knockA := by decide
  knockB := by decide

theorem commitAgrees_reset : CommitAgrees State.reset := .of_nothingPending rfl ⟨fun _ => rfl, fun h => by cases h⟩

theorem imagesAgree_reset : ImagesAgree State.reset :=
  ⟨commitAgrees_reset, defaultImage_inRange, defaultImage_inRange, by decide⟩

theorem captureAgrees_reset : CaptureAgrees State.reset := by
  have none : ∀ r ∈ State.reset.cap.requests, False := fun r h => List.not_mem_nil h
  have list : RequestsFit State.reset.cap.requests :=
    ⟨by decide, fun _ => Nat.zero_le _, by decide, fun r h => (none r h).elim, fun r h => (none r h).elim,
      fun r h => (none r h).elim⟩
  exact Cap.Listed.agrees ⟨Memory.wf_reset, by decide, list, by decide, fun _ h => (by cases h), fun r h => (none r h).elim⟩
    fun _ r h => (none r h).elim

theorem gainsAgree_reset : GainsAgree State.reset := by
  intro r h
  have all : ∀ i : Fin 12, (State.reset.cfg.active.row i).autoRange = false →
      (State.reset.kfe.rowGain i).gain = (State.reset.cfg.active.row i).initGain := by decide
  exact all ⟨r, h⟩

/-- Settles O60: each invariant at the values that the chapters give for RSTN. -/
theorem invariantsAtReset : Obligations.InvariantsAtReset := by
  refine ⟨fun p => by cases p <;> decide, captureAgrees_reset, commitAgrees_reset, imagesAgree_reset,
    ⟨imagesAgree_reset, ?_, ?_, ?_⟩, gainsAgree_reset, ⟨imagesAgree_reset, by decide, fun r h => by cases h⟩⟩
  · intro c; cases c <;> decide
  · intro c; cases c <;> decide
  · intro σ; cases σ <;> decide

/-- R190: RSTN at "L" brings the part to its reset state, whatever stood before. -/
theorem State.hold_preserves (s : State) : Preserves s s.hold := by
  obtain ⟨queues, capture, commit, images, knock, gains, cursor⟩ := invariantsAtReset
  have same : Preserves State.reset s.hold := .of_eq rfl rfl rfl rfl rfl rfl rfl
  exact ⟨⟨fun _ => same.queues queues, fun _ => same.capture capture⟩, fun _ => same.commit commit, fun _ => same.images images,
    fun _ => same.knock knock, fun _ => same.gains gains, fun _ => same.cursor cursor⟩

/-! ### Every command and every step -/

/-- Every command ends in a next state, in which the invariants still hold. -/
theorem exec_preserves (i : Instr) (s : State) : ∃ u, exec i s = .next u ∧ Preserves s u := by
  cases i with
  | rstnLow => exact ⟨_, rfl, s.hold_preserves⟩
  | powerOn => exact ⟨_, rfl, s.hold_preserves⟩
  | rstnRise alsin =>
    show ∃ u, execRstnRise alsin s = .next u ∧ _
    unfold execRstnRise
    split
    · exact ⟨_, rfl, .refl s⟩
    · exact ⟨_, rfl, .of_eq rfl rfl rfl rfl rfl rfl rfl⟩
  | startUpEnd t =>
    refine ⟨_, rfl, onEvent_preserves (fun x => ?_) t s⟩
    split; exacts [.of_eq rfl rfl rfl rfl rfl rfl rfl, .refl x]
  | crankEdge t e =>
    refine ⟨_, rfl, onEvent_preserves (fun x => ?_) t s⟩
    split; exacts [x.crankTooth_preserves t, .refl x]
  | camEdge t e =>
    refine ⟨_, rfl, onEvent_preserves (fun x => ?_) t s⟩
    split; exacts [x.camSelectedEdge_preserves t, .refl x]
  | stall t => exact ⟨_, rfl, onEvent_preserves (fun x => x.stall_preserves t) t s⟩
  | angleReached t =>
    refine ⟨_, rfl, onEvent_preserves (fun x => ?_) t s⟩
    split; exacts [x.reachAngle_preserves t _, .refl x]
  | igsEdge t n e =>
    refine ⟨_, rfl, onEvent_preserves (fun x => ?_) t s⟩
    split; exacts [x.igsFall_preserves t n, .refl x]
  | alsinEdge t e =>
    exact ⟨_, rfl, onEvent_preserves (fun x => (x.setOps_preserves _).trans (State.mergeOps_preserves _)) t s⟩
  | knockSample t a b =>
    refine ⟨_, rfl, onEvent_preserves (fun x => ?_) t s⟩
    split; exacts [x.sample_preserves t a b, .refl x]
  | declExpiry t p =>
    refine ⟨_, rfl, onEvent_preserves (fun x => ?_) t s⟩
    split
    · exact (x.setDecl_preserves p none).trans (State.setPort_preserves id)
    · exact .refl x
  | captureHoldExpiry t =>
    refine ⟨_, rfl, onEvent_preserves (fun x => ?_) t s⟩
    split; exacts [x.expireHold_preserves t, .refl x]
  | selectionStart t p =>
    refine ⟨_, rfl, onEvent_preserves (fun x => ?_) t s⟩
    split
    · unfold State.select
      split <;> exact State.setPort_preserves id
    · exact .refl x
  | processingDone t p =>
    refine ⟨_, rfl, onEvent_preserves (fun x => ?_) t s⟩
    exact State.setPort_preserves id
  | badFrame t p bytes => exact ⟨_, rfl, takeRequest_preserves .refl t p s⟩
  | unknownCommand t p code pl => exact ⟨_, rfl, takeRequest_preserves .refl t p s⟩
  | noOp t p pl => exact ⟨_, rfl, request_preserves .refl t p 0 pl s⟩
  | status t p pl => exact ⟨_, rfl, request_preserves .refl t p 0 pl s⟩
  | setAlertMask t p pl => exact ⟨_, rfl, request_preserves (serveSetAlertMask_preserves p pl) t p 1 pl s⟩
  | clearAlerts t p pl => exact ⟨_, rfl, request_preserves (serveClearAlerts_preserves p pl) t p 1 pl s⟩
  | portReset t p pl => exact ⟨_, rfl, request_preserves (servePortReset_preserves t p) t p 0 pl s⟩
  | readAngle t p pl => exact ⟨_, rfl, request_preserves .refl t p 0 pl s⟩
  | stageRows t p pl =>
    exact ⟨_, rfl, request_preserves (unlessPending_preserves fun _ h => serveStageRows_preserves h p pl) t p 5 pl s⟩
  | readRows t p pl => exact ⟨_, rfl, request_preserves (fun x => .of_state (serveReadRows_state pl x)) t p 3 pl s⟩
  | declareState t p pl => exact ⟨_, rfl, request_preserves (serveDeclareState_preserves p pl) t p 3 pl s⟩
  | readOpstate t p pl => exact ⟨_, rfl, request_preserves .refl t p 0 pl s⟩
  | readMisfire t p pl => exact ⟨_, rfl, request_preserves .refl t p 0 pl s⟩
  | readKnockFront t p pl => exact ⟨_, rfl, request_preserves .refl t p 0 pl s⟩
  | readKnockState t p pl => exact ⟨_, rfl, request_preserves .refl t p 0 pl s⟩
  | retardReset t p pl => exact ⟨_, rfl, request_preserves (serveRetardReset_preserves pl) t p 1 pl s⟩
  | readCylinder t p pl => exact ⟨_, rfl, request_preserves (fun x => .of_state (serveReadCylinder_state pl x)) t p 1 pl s⟩
  | readTable t p pl => exact ⟨_, rfl, request_preserves .refl t p 0 pl s⟩
  | subscribe t p pl => exact ⟨_, rfl, request_preserves (serveSubscribe_preserves p pl) t p 4 pl s⟩
  | fetchRecords t p pl => exact ⟨_, rfl, request_preserves (serveFetchRecords_preserves p pl) t p 1 pl s⟩
  | clearQueue t p pl => exact ⟨_, rfl, request_preserves (serveClearQueue_preserves p) t p 0 pl s⟩
  | captureRequest t p pl => exact ⟨_, rfl, request_preserves (serveCaptureRequest_preserves t p pl) t p 5 pl s⟩
  | mark t p pl => exact ⟨_, rfl, request_preserves (serveMark_preserves t p) t p 0 pl s⟩
  | captureRead t p pl =>
    exact ⟨_, rfl, request_preserves (onHandle_preserves p pl fun x r _ => .of_state (serveCaptureRead_state pl r x)) t p 4 pl s⟩
  | captureRelease t p pl =>
    exact ⟨_, rfl, request_preserves (onHandle_preserves p pl fun _ _ h => serveCaptureRelease_preserves h t) t p 1 pl s⟩
  | captureCancel t p pl =>
    exact ⟨_, rfl, request_preserves (onHandle_preserves p pl fun _ _ h => serveCaptureCancel_preserves h t) t p 1 pl s⟩
  | captureStatus t p pl => exact ⟨_, rfl, request_preserves .refl t p 0 pl s⟩
  | stageGlobal t p pl =>
    exact ⟨_, rfl, request_preserves (unlessPending_preserves fun _ h => serveStageGlobal_preserves h p pl) t p 5 pl s⟩
  | stageTable t p pl =>
    exact ⟨_, rfl, request_preserves (unlessPending_preserves fun _ h => serveStageTable_preserves h p pl) t p 6 pl s⟩
  | readActive t p pl => exact ⟨_, rfl, request_preserves (fun x => .of_state (serveReadImage_state _ _ pl x)) t p 1 pl s⟩
  | readStaged t p pl => exact ⟨_, rfl, request_preserves (fun x => .of_state (serveReadImage_state _ _ pl x)) t p 1 pl s⟩
  | discard t p pl => exact ⟨_, rfl, request_preserves serveDiscard_preserves t p 0 pl s⟩
  | commit t p pl => exact ⟨_, rfl, request_preserves (serveCommit_preserves t p pl) t p 1 pl s⟩

theorem State.tick_preserves (s : State) : Preserves s s.tick := by
  unfold State.tick
  split
  · exact .of_eq rfl rfl rfl rfl rfl rfl rfl
  · exact .refl s

/-- Every step keeps every invariant, each from itself alone. -/
theorem step_preserves (h : step s = .next u) : Preserves s u := by
  unfold step at h
  split at h
  next i rest _ =>
    obtain ⟨w, hw, kept⟩ := exec_preserves i (s.setPending rest)
    rw [hw] at h
    cases h
    have waiting : Preserves s (s.setPending rest) := .of_eq rfl rfl rfl rfl rfl rfl rfl
    exact waiting.trans kept
  · cases h
    exact s.tick_preserves

/-- Settles O53: the queues grow through the offer of a record alone, which a full queue drops. -/
theorem queuesFitKept : Obligations.QueuesFitKept := fun _ _ h k => (step_preserves k).queues h

/-- Settles O54: every change of the request list is one of `Cap.Listed` and ends in the grant, and filling leaves the list alone. -/
theorem captureAgreesKept : Obligations.CaptureAgreesKept := fun _ _ h k => (step_preserves k).capture h

/-- Settles O55: a departure from FULL_SYNC applies what is pending, and a polarity changes in mode AUTO or by a commit. -/
theorem commitAgreesKept : Obligations.CommitAgreesKept := fun _ _ h k => (step_preserves k).commit h

/-- Settles O56: staged values are tested when they are written, and the active image is a staged one that has passed the checks. -/
theorem imagesAgreeKept : Obligations.ImagesAgreeKept := fun _ _ h k => (step_preserves k).images h

/-- Settles O57: decisions clamp, and an apply clamps retards and raises references with the limits it changes. -/
theorem knockStateFitsKept : Obligations.KnockStateFitsKept := fun _ _ h k => (step_preserves k).knock h

/-- Settles O58: the auto-range step reaches rows with auto-range on, and an apply resets every row that it turns off. -/
theorem gainsAgreeKept : Obligations.GainsAgreeKept := fun _ _ h k => (step_preserves k).gains h

/-- Settles O59: the cursor is positioned with the entry to FULL_SYNC, advances round the run list, and goes with the sync loss. -/
theorem cursorAgreesKept : Obligations.CursorAgreesKept := fun _ _ h k => (step_preserves k).cursor h

end Sys2Proof.Machine
end

section
/-! PROOFS. The step, the reset line and the tooth edge outside crank sync (chapter 1, section 11.4): O1, O3 to O6, O8 to O10. -/

namespace Sys2Proof.Machine

variable {s u : State}

/-! ### The step (R1) -/

theorem mem_ite_singleton {α : Type} {p : Prop} [Decidable p] {x y : α} : y ∈ (if p then [x] else []) ↔ y = x ∧ p := by
  split <;> simp_all

theorem mem_duePorts {f : Port → Bool} {g : Port → Instr} {c : Instr} :
    c ∈ (allPorts.filter f).map g ↔ ∃ p, c = g p ∧ f p = true := by
  have every : ∀ p : Port, p ∈ allPorts := by intro p; cases p <;> decide
  simp only [List.mem_map, List.mem_filter, every, true_and]
  exact ⟨fun ⟨p, h, e⟩ => ⟨p, e.symm, h⟩, fun ⟨p, e, h⟩ => ⟨p, h, e.symm⟩⟩

theorem mem_insertEvent {e x : LayoutEvent} {l : List LayoutEvent} : x ∈ insertEvent e l ↔ x = e ∨ x ∈ l := by
  induction l with
  | nil => simp [insertEvent]
  | cons y l ih =>
    unfold insertEvent
    split
    · simp
    · simp only [List.mem_cons, ih]
      exact or_left_comm

/-- R17: the events between two cycle angles are the layout events whose cycle angles lie there. -/
theorem Image.mem_eventsBetween {img : Image} {lo hi : Nat} {e : LayoutEvent} :
    e ∈ img.eventsBetween lo hi ↔ e ∈ img.layoutEvents ∧ lo ≤ e.cycleAngle ∧ e.cycleAngle ≤ hi := by
  have sorted : ∀ l : List LayoutEvent, e ∈ l.foldr insertEvent [] ↔ e ∈ l := by
    intro l
    induction l with
    | nil => rfl
    | cons x l ih => rw [List.foldr_cons, mem_insertEvent, ih, List.mem_cons]
  rw [Image.eventsBetween, sorted, List.mem_filter]
  simp

/-- R1, R17: an event of the angle clock is due exactly when one of the layout has been reached and not raised. -/
theorem State.angleDue_iff (s : State) : s.angleDue = true ↔ s.adec.sync = .fullSync ∧
    ∃ e ∈ s.cfg.active.layoutEvents, s.adec.nextAngle ≤ e.cycleAngle ∧
      e.cycleAngle ≤ s.adec.cycleAngle s.cfg.active s.timebase := by
  rw [State.angleDue, Bool.and_eq_true, decide_eq_true_eq, Bool.not_eq_true', List.isEmpty_eq_false_iff_exists_mem]
  simp only [Image.mem_eventsBetween]

theorem State.declDue_iff (s : State) (t : Stamp) (p : Port) :
    s.declDue t p = true ↔ ∃ d, s.ops.decl.get p = some d ∧ d.duration ≤ (t - d.start).toNat := by
  rw [State.declDue, Option.any_eq_true]
  exact exists_congr fun d => and_congr_right fun _ => decide_eq_true_iff

/-- The commands that have come due, one clause for each timer of the part. -/
theorem State.mem_dueCommands (s : State) (c : Instr) :
    let now := s.timebase
    c ∈ s.dueCommands ↔
      (c = .startUpEnd now ∧ s.startUp = true ∧ 4000 ≤ now.toNat) ∨
      (c = .stall now ∧ s.adec.sync ≠ .halted ∧ s.cfg.active.stallMs * 2000 ≤ (now - s.adec.stallRef).toNat) ∨
      (c = .angleReached now ∧ s.adec.sync = .fullSync ∧
        ∃ e ∈ s.cfg.active.layoutEvents, s.adec.nextAngle ≤ e.cycleAngle ∧ e.cycleAngle ≤ s.adec.cycleAngle s.cfg.active now) ∨
      (∃ (p : Port) (d : Declaration), c = .declExpiry now p ∧ s.ops.decl.get p = some d ∧ d.duration ≤ (now - d.start).toNat) ∨
      (c = .captureHoldExpiry now ∧ s.cap.unit = .held ∧ s.cap.holdTicks ≤ (now - s.cap.holdStart).toNat) ∨
      (∃ p : Port, c = .processingDone now p ∧ (s.ports.get p).busy = true ∧ 40 ≤ (now - (s.ports.get p).busySince).toNat) := by
  intro now
  unfold State.dueCommands
  simp only [List.mem_append, mem_ite_singleton, mem_duePorts, State.angleDue_iff, State.declDue_iff, State.stallDue,
    State.holdDue, State.busyOver, Bool.and_eq_true, decide_eq_true_eq, or_assoc, exists_and_left]
  rfl

/-- Settles O1: the queue's front, the idle tick held and running, and the timers one by one. -/
theorem stepRunsTheFrontCommand : Obligations.StepRunsTheFrontCommand := by
  refine ⟨fun _ _ => rfl, fun s hq hr => ?_, fun s hq hr => ?_, State.mem_dueCommands⟩
  · rw [step, hq]
    exact congrArg _ (if_neg (by rw [hr]; decide))
  · rw [step, hq]
    exact congrArg _ (if_pos hr)

/-! ### The reset line (R190) -/

theorem exec_rstnRise_running (h : s.running = true) (level : Bool) : exec (.rstnRise level) s = .next s := by
  show execRstnRise level s = _
  rw [execRstnRise, if_pos h]

theorem exec_startUpEnd_due (h : s.running = true) {t : Stamp} (ht : 4000 ≤ t.toNat) :
    exec (.startUpEnd t) s = .next { s with timebase := t, startUp := false } := by
  show execStartUpEnd t s = _
  rw [execStartUpEnd, onEvent_running h]
  exact congrArg _ (if_pos ht)

theorem exec_startUpEnd_early (h : s.running = true) {t : Stamp} (ht : t.toNat < 4000) :
    exec (.startUpEnd t) s = .next { s with timebase := t } := by
  show execStartUpEnd t s = _
  rw [execStartUpEnd, onEvent_running h]
  exact congrArg _ (if_neg (Nat.not_le.mpr ht))

/-- Settles O3: RSTN low, power-on, the rise and the end of the start-up period, command by command. -/
theorem resetLine : Obligations.ResetLine :=
  ⟨exec_rstnLow, exec_powerOn, fun level _ h => exec_rstnRise_running h level, fun level _ h => exec_rstnRise_held h level,
    fun _ _ h ht => exec_startUpEnd_due h ht, fun _ _ h ht => exec_startUpEnd_early h ht⟩

/-- Held in reset nothing that arrives acts. -/
theorem next_onEvent_held (h : s.running = false) (t : Stamp) (act : State → State) :
    (Host.Outcome.next (onEvent t act s) : Host.Outcome State Fault Refusal) = .next s := by rw [onEvent_held h]

/-- Settles O4: every command but the three of the reset line arrives through `onEvent`. -/
theorem heldInReset : Obligations.HeldInReset := by
  intro c s h low on rise
  cases c with
  | rstnLow => exact absurd rfl low
  | powerOn => exact absurd rfl on
  | rstnRise level => exact absurd rfl (rise level)
  | _ => exact next_onEvent_held h _ _

/-! ### Edges that are not used (R2, R14, R42) -/

theorem isToothEdge_iff (s : State) (e : Edge) : isToothEdge s.adec.polarity e = true ↔ e = s.toothEdge := by
  rw [State.toothEdge]
  cases s.adec.polarity <;> cases e <;> decide

theorem camSelected_iff (img : Image) (e : Edge) : camSelected img e = true ↔ CamCounts img e := by
  unfold camSelected CamCounts
  split <;> simp_all

theorem exec_crankEdge_unused (h : s.running = true) {e : Edge} (he : e ≠ s.toothEdge) (t : Stamp) :
    exec (.crankEdge t e) s = .next { s with timebase := t } := by
  show execCrankEdge t e s = _
  rw [execCrankEdge, onEvent_running h]
  exact congrArg _ (if_neg fun k => he ((isToothEdge_iff s e).mp k))

theorem exec_camEdge_unused (h : s.running = true) {e : Edge} (he : ¬ CamCounts s.cfg.active e) (t : Stamp) :
    exec (.camEdge t e) s = .next { s with timebase := t } := by
  show execCamEdge t e s = _
  rw [execCamEdge, onEvent_running h]
  exact congrArg _ (if_neg fun k => he ((camSelected_iff _ e).mp k))

theorem exec_camEdge_unsynced (h : s.running = true)
    (hs : s.adec.sync = .halted ∨ s.adec.sync = .seek ∨ s.adec.sync = .verify) (t : Stamp) (e : Edge) :
    exec (.camEdge t e) s = .next { s with timebase := t } := by
  have ignored : (s.setTimebase t).camSelectedEdge t = s.setTimebase t := by
    unfold State.camSelectedEdge
    rw [State.setTimebase_adec]
    obtain e | e | e := hs <;> rw [e]
  show execCamEdge t e s = _
  rw [execCamEdge, onEvent_running h, ignored]
  exact congrArg _ (ite_self _)

/-- Settles O5: the tests of the tooth edge, of the cam edge and of the ignition edge, each failing. -/
theorem unusedEdges : Obligations.UnusedEdges := by
  refine ⟨fun t e s h he => exec_crankEdge_unused h he t, fun t e s h he => exec_camEdge_unused h he t,
    fun t e s h hs => exec_camEdge_unsynced h hs t e, fun t n s h => ?_⟩
  show execIgsEdge t n .rising s = _
  rw [execIgsEdge, onEvent_running h]
  rfl

/-! ### The period of an edge (R3, R4) -/

theorem isGap_iff (img : Image) (prev P : Nat) : isGap img prev P = true ↔ GapPeriod img.missing prev P := by
  simp [isGap, GapPeriod]

theorem Adec.endsGap_iff {a : Adec} {e : Stamp} (h : a.lastEdge = some e) (img : Image) (t : Stamp) :
    a.endsGap img t = true ↔ GapPeriod img.missing a.period (t - e).toNat := by
  rw [Adec.endsGap, Adec.newPeriod, h]
  exact isGap_iff _ _ _

theorem Adec.endsGap_first {a : Adec} (h : a.lastEdge = none) (img : Image) (t : Stamp) : a.endsGap img t = false := by
  rw [Adec.endsGap, Adec.newPeriod, h]
  rfl

theorem Adec.accept_gap {a : Adec} {e : Stamp} (h : a.lastEdge = some e) {img : Image} {t : Stamp}
    (gap : GapPeriod img.missing a.period (t - e).toNat) :
    a.accept img t = a.afterPeriod t (t - e).toNat ((t - e).toNat / (img.missing + 1)) := by
  rw [Adec.accept, Adec.newPeriod, h]
  simp only [Option.map_some, elapsed, if_pos ((isGap_iff img _ _).mpr gap)]
  rfl

theorem Adec.accept_plain {a : Adec} {e : Stamp} (h : a.lastEdge = some e) {img : Image} {t : Stamp}
    (gap : ¬ GapPeriod img.missing a.period (t - e).toNat) :
    a.accept img t = a.afterPeriod t (t - e).toNat (t - e).toNat := by
  rw [Adec.accept, Adec.newPeriod, h]
  simp only [Option.map_some, elapsed, if_neg (mt (isGap_iff img _ _).mp gap)]
  rfl

theorem Adec.accept_first {a : Adec} (h : a.lastEdge = none) (img : Image) (t : Stamp) :
    a.accept img t = { a with stallRef := t, lastEdge := some t } := by
  rw [Adec.accept, Adec.newPeriod, h]
  rfl

/-- R2: the tooth edge of the polarity in use is handled by the rule of the sync state in force. -/
theorem exec_toothEdge (h : s.running = true) (t : Stamp) :
    exec (.crankEdge t s.toothEdge) s = .next ((s.setTimebase t).crankTooth t) :=
  exec_crankEdge_tooth h ((isToothEdge_iff s _).mpr rfl) t

theorem exec_toothEdge_seek (h : s.running = true) (hs : s.adec.sync = .seek) (t : Stamp) :
    exec (.crankEdge t s.toothEdge) s = .next ((s.setTimebase t).crankSeek t) := by
  rw [exec_toothEdge h, State.crankTooth, State.setTimebase_adec, hs]

theorem exec_toothEdge_verify (h : s.running = true) (hs : s.adec.sync = .verify) (t : Stamp) :
    exec (.crankEdge t s.toothEdge) s = .next ((s.setTimebase t).crankVerify t) := by
  rw [exec_toothEdge h, State.crankTooth, State.setTimebase_adec, hs]

/-! ### Changes between the states outside crank sync (R20, R21) -/

/-- Outside crank sync no change raises a loss event, save the halt event of HALTED. -/
theorem State.changeSync_unsynced {a : Adec} (full : s.adec.sync ≠ .fullSync) (crank : s.adec.sync ≠ .crankSync)
    (ha : a.sync ≠ .halted) (t : Stamp) (c : SyncCause) :
    s.changeSync t a c = { s with adec := a, ports := syncPorts s.ports (syncRecord t a.cycle a.sync c a.polarity) } := by
  rw [State.changeSync_eq]
  unfold State.lossEvents
  dsimp only
  rw [if_neg ha, if_neg (fun x => x.1.elim full crank), if_neg (fun x => full x.1)]

/-- Settles O6: HALTED holds no edge, so the first one starts SEEK. -/
theorem toothEdgeInHalted : Obligations.ToothEdgeInHalted := by
  intro t s h hs
  rw [exec_crankEdge_halted h ((isToothEdge_iff s _).mpr rfl) hs]
  unfold State.crankHalted
  exact congrArg _ (State.changeSync_unsynced (by simp [State.arrive, hs]) (by simp [State.arrive, hs]) (by simp [Adec.enterSeek]) t .edge)

/-! ### SEEK (R6) -/

theorem State.crankSeek_gap (hs : s.adec.sync = .seek) {t : Stamp} (gap : s.adec.endsGap s.cfg.active t = true) :
    s.crankSeek t = { s with
      adec := { s.adec.accept s.cfg.active t with
                sync := .verify, seekCount := s.adec.seekCount + 1, verifyCount := 0, lastGapEnd := some t }
      ports := syncPorts s.ports
        (syncRecord t (s.adec.accept s.cfg.active t).cycle .verify .gapFound (s.adec.accept s.cfg.active t).polarity) } := by
  unfold State.crankSeek
  dsimp only
  rw [if_pos gap]
  exact State.changeSync_unsynced (by simp [hs]) (by simp [hs]) (by simp) t .gapFound

theorem State.crankSeek_counts {t : Stamp} (gap : s.adec.endsGap s.cfg.active t = false)
    (few : s.adec.seekCount + 1 < 3 * s.cfg.active.nPos) :
    s.crankSeek t = { s with adec := { s.adec.accept s.cfg.active t with seekCount := s.adec.seekCount + 1 } } := by
  unfold State.crankSeek
  dsimp only
  rw [if_neg (by rw [gap]; decide), if_neg (Nat.not_le.mpr few)]
  rfl

/-- Settles O8: a gap found, a period that counts, and an edge without a period. -/
theorem toothEdgeInSeek : Obligations.ToothEdgeInSeek := by
  intro t s h hs
  rw [exec_toothEdge_seek h hs]
  refine ⟨fun e he gap => ?_, fun e he gap few => ?_, fun he few => ?_⟩
  · rw [State.crankSeek_gap (s := s.setTimebase t) hs ((Adec.endsGap_iff he _ t).mpr gap), State.setTimebase_adec,
      State.setTimebase_cfg, Adec.accept_gap he gap]
    rfl
  · rw [State.crankSeek_counts (s := s.setTimebase t) (Bool.eq_false_iff.mpr fun k => gap ((Adec.endsGap_iff he _ t).mp k)) few,
      State.setTimebase_adec, State.setTimebase_cfg, Adec.accept_plain he gap]
    rfl
  · rw [State.crankSeek_counts (s := s.setTimebase t) (Adec.endsGap_first he _ t) few, State.setTimebase_adec,
      State.setTimebase_cfg, Adec.accept_first he]
    rfl

/-! ### VERIFY and its failures (R7, R8) -/

/-- R8: a failure that flips the polarity restarts SEEK with no edge. -/
theorem State.verifyFailure_flips {a : Adec} (full : s.adec.sync ≠ .fullSync) (crank : s.adec.sync ≠ .crankSync)
    (flips : s.cfg.active.polMode = 2 ∧ 4 ≤ min 255 (a.verifyFails + 1)) (t : Stamp) (v g : Bool) :
    s.verifyFailure t a v g = { s with
      adec := a.countFailure.flip.enterSeek none
      ports := syncPorts s.ports (syncRecord t a.cycle .seek .polarityFlip a.polarity.other) } := by
  unfold State.verifyFailure
  dsimp only
  rw [if_pos (by exact flips)]
  exact State.changeSync_unsynced full crank (by simp [Adec.enterSeek]) t .polarityFlip

theorem State.verifyFailure_restarts {a : Adec} (flips : ¬ (s.cfg.active.polMode = 2 ∧ 4 ≤ min 255 (a.verifyFails + 1)))
    (t : Stamp) : s.verifyFailure t a true true = { s with adec := { a.countFailure with verifyCount := 0 } } := by
  unfold State.verifyFailure
  dsimp only
  rw [if_neg (by exact flips), if_pos rfl, if_pos rfl]
  rfl

theorem State.verifyFailure_fails {a : Adec} (full : s.adec.sync ≠ .fullSync) (crank : s.adec.sync ≠ .crankSync)
    (flips : ¬ (s.cfg.active.polMode = 2 ∧ 4 ≤ min 255 (a.verifyFails + 1))) (t : Stamp) :
    s.verifyFailure t a true false = { s with
      adec := a.countFailure.enterSeek (some t)
      ports := syncPorts s.ports (syncRecord t a.cycle .seek .verifyFail a.polarity) } := by
  unfold State.verifyFailure
  dsimp only
  rw [if_neg (by exact flips), if_pos rfl, if_neg (by decide)]
  exact State.changeSync_unsynced full crank (by simp [Adec.enterSeek]) t .verifyFail

theorem State.verifyFailure_seeks {a : Adec} (flips : ¬ (s.cfg.active.polMode = 2 ∧ 4 ≤ min 255 (a.verifyFails + 1)))
    (t : Stamp) : s.verifyFailure t a false false = { s with adec := { a.countFailure with seekCount := 0 } } := by
  unfold State.verifyFailure
  dsimp only
  rw [if_neg (by exact flips), if_neg (by decide)]
  rfl

/-- Settles O10: the branches of R7 and R6 that fail, each with and without the flip of R8, and the period that counts. -/
theorem verifyFailures : Obligations.VerifyFailures := by
  intro t e s h he img P gap fails counted flipped flips
  have ends := Adec.endsGap_iff he img t
  have noGap : ¬ gap → (s.setTimebase t).adec.endsGap img t = false := fun hg => Bool.eq_false_iff.mpr fun k => hg (ends.mp k)
  refine ⟨fun hs hg early => ?_, fun hs hg late => ?_, fun hs hg counts => ?_, fun hs hg many => ?_⟩
  · have rule : (s.setTimebase t).crankVerify t = (s.setTimebase t).verifyFailure t
        { s.adec.afterPeriod t P (P / (img.missing + 1)) with lastGapEnd := some t } true true := by
      rw [← Adec.accept_gap he hg]
      unfold State.crankVerify
      exact (if_pos (ends.mpr hg)).trans (if_neg early)
    rw [exec_toothEdge_verify h hs, rule]
    refine ⟨fun no => ?_, fun yes => ?_⟩
    · exact congrArg _ (State.verifyFailure_restarts (by exact no) t)
    · exact congrArg _ (State.verifyFailure_flips (by simp [hs]) (by simp [hs]) (by exact yes) t true true)
  · have rule : (s.setTimebase t).crankVerify t = (s.setTimebase t).verifyFailure t (s.adec.afterPeriod t P P) true false := by
      rw [← Adec.accept_plain he hg]
      unfold State.crankVerify
      exact (if_neg (by rw [State.setTimebase_cfg, noGap hg]; decide)).trans (if_pos late.ge)
    rw [exec_toothEdge_verify h hs, rule]
    refine ⟨fun no => ?_, fun yes => ?_⟩
    · exact congrArg _ (State.verifyFailure_fails (by simp [hs]) (by simp [hs]) (by exact no) t)
    · exact congrArg _ (State.verifyFailure_flips (by simp [hs]) (by simp [hs]) (by exact yes) t true false)
  · have rule : (s.setTimebase t).crankVerify t =
        (s.setTimebase t).setAdec { s.adec.afterPeriod t P P with verifyCount := s.adec.verifyCount + 1 } := by
      rw [← Adec.accept_plain he hg]
      unfold State.crankVerify
      exact (if_neg (by rw [State.setTimebase_cfg, noGap hg]; decide)).trans (if_neg (Nat.not_le.mpr counts))
    rw [exec_toothEdge_verify h hs, rule]
    rfl
  · have rule : (s.setTimebase t).crankSeek t = (s.setTimebase t).verifyFailure t
        { s.adec.afterPeriod t P P with seekCount := s.adec.seekCount + 1 } false false := by
      rw [← Adec.accept_plain he hg]
      unfold State.crankSeek
      exact (if_neg (by rw [State.setTimebase_cfg, noGap hg]; decide)).trans (if_pos many)
    rw [exec_toothEdge_seek h hs, rule]
    refine ⟨fun no => ?_, fun yes => ?_⟩
    · exact congrArg _ (State.verifyFailure_seeks (by exact no) t)
    · exact congrArg _ (State.verifyFailure_flips (by simp [hs]) (by simp [hs]) (by exact yes) t false false)

/-! ### The entry to CRANK_SYNC (R7, R165) -/

/-- A change that leaves every block but capture unit and ports. -/
theorem CapFrame.eq {s u : State} (h : CapFrame s u) : u = { s with cap := u.cap, ports := u.ports } :=
  h.self u.cap u.ports

/-- R165: what a TOOTH capture takes of the gap end is nothing while no capture fills, and its start when it has not started. -/
theorem State.toothTaken_idle (h : s.cap.unit ≠ .filling) (t : Stamp) (P : Nat) (g : Bool) : s.toothTaken t P g = s := by
  unfold State.toothTaken
  split
  · rfl
  · exact if_pos (.inl h)

theorem State.toothTaken_starts {r : Request} (hu : s.cap.unit = .filling) (ha : s.cap.activeRequest = some r)
    (hk : r.kind = .tooth) (hn : s.cap.started = false) (t : Stamp) (P : Nat) :
    s.toothTaken t P true = { s with cap := { s.cap with started := true } } := by
  unfold State.toothTaken
  rw [ha]
  dsimp only
  rw [if_neg (by simp [hu, hk]), if_pos hn]

/-- Settles O9: the gap at its place, taken by the decoder and then by the capture unit. -/
theorem verifyReachesCrankSync : Obligations.VerifyReachesCrankSync := by
  intro t e g s h hs he hg gap place
  have ends := (Adec.endsGap_iff he s.cfg.active t).mpr gap
  let entered : State :=
    { s with
      timebase := t
      adec := { s.adec.afterPeriod t (t - e).toNat ((t - e).toNat / (s.cfg.active.missing + 1)) with
                sync := .crankSync, toothIndex := 0, trev := (t - g).toNat, lastGapEnd := some t,
                lastGood := s.adec.polarity, verifyFails := 0 }
      ports := syncPorts s.ports (syncRecord t s.adec.cycle .crankSync .verified s.adec.polarity) }
  have verified : (s.setTimebase t).changeSync t ((s.adec.accept s.cfg.active t).verified t) .verified = entered := by
    rw [State.changeSync_unsynced (by simp [hs]) (by simp [hs]) (by simp [Adec.verified])]
    rw [Adec.accept_gap he gap, Adec.verified, Adec.gapEnd, show (Adec.afterPeriod _ _ _ _).lastGapEnd = some g from hg]
    rfl
  have rule : (s.setTimebase t).crankVerify t = entered.toothTaken t (s.adec.accept s.cfg.active t).period true := by
    rw [← State.noticeGapEnd_taken, ← verified]
    unfold State.crankVerify
    exact (if_pos ends).trans (if_pos place)
  have frame : CapFrame entered ((s.setTimebase t).crankVerify t) := by
    rw [rule, ← State.noticeGapEnd_taken]
    exact (State.noticePeriod_frame _ _).trans (State.noticeGapEnd_frame _ _)
  refine ⟨_, exec_toothEdge_verify h hs t, frame.eq, fun hu => ?_, fun r hu ha hk hn => ?_⟩
  · rw [rule, State.toothTaken_idle (by exact hu)]
    exact ⟨rfl, rfl⟩
  · rw [rule, State.toothTaken_starts (s := entered) hu ha hk hn]
    exact ⟨rfl, rfl⟩

end Sys2Proof.Machine
end

section
/-! PROOFS. The loss events, the tooth edge in crank sync, the cam edge, the stall and the cycle boundary (chapter 1): O7, O11, O14 to
O17. -/

namespace Sys2Proof.Machine

variable {s u v : State}

/-! ### The loss events by their parts (R21) -/

/-- The sync loss, where there is one, then the capture unit's share of a crank loss, then the halt of MFA. -/
theorem State.lossEvents_parts (s : State) (t : Stamp) (b : SyncState) :
    ∃ v : State, CapFrame (if b = .fullSync ∧ s.adec.sync ≠ .fullSync then s.syncLoss t else s) v ∧
      s.lossEvents t b = if s.adec.sync = .halted then v.modMfa Mfa.halt else v := by
  refine ⟨_, ?_, rfl⟩
  by_cases crank : (b = .fullSync ∨ b = .crankSync) ∧ (s.adec.sync = .seek ∨ s.adec.sync = .halted)
  · rw [if_pos crank]
    exact State.capCrankLoss_frame _ t
  · rw [if_neg crank]
    exact .refl _

/-- The sync loss is the first of the loss events that follow FULL_SYNC. -/
theorem State.lossEvents_lost (h : s.adec.sync ≠ .fullSync) (t : Stamp) : LostSync s (s.lossEvents t .fullSync) := by
  obtain ⟨v, frame, rule⟩ := s.lossEvents_parts t .fullSync
  rw [if_pos ⟨rfl, h⟩] at frame
  obtain ⟨lost, hc, hb⟩ := s.syncLoss_lost t
  have here : LostSync s v := by
    refine ⟨frame.smap.trans lost.smap, frame.igsu.trans lost.igsu, ?_, frame.kfe.trans lost.kfe, frame.cyt.trans lost.cyt⟩
    rw [frame.mfa]
    exact lost.mfa
  rw [rule]
  split
  · refine ⟨here.smap, here.igsu, ?_, here.kfe, here.cyt⟩
    have hm := here.mfa
    show v.mfa.halt = _
    rw [hm]
    rfl
  · exact here

/-- What a sync loss leaves depends on the blocks MFA, KFE and CYT of the state before it. -/
theorem LostSync.congr (h : LostSync s u) (mfa : s.mfa = v.mfa) (kfe : s.kfe = v.kfe) (cyt : s.cyt = v.cyt) : LostSync v u := by
  obtain ⟨hsmap, higsu, hmfa, hkfe, hcyt⟩ := h
  exact ⟨hsmap, higsu, by rw [← mfa]; exact hmfa, by rw [← kfe]; exact hkfe, by rw [← cyt]; exact hcyt⟩

/-- Without a sync loss the blocks that act on one stay. -/
theorem State.lossEvents_kept {b : SyncState} (h : b ≠ .fullSync) (t : Stamp) :
    (s.lossEvents t b).smap = s.smap ∧ (s.lossEvents t b).igsu = s.igsu ∧ (s.lossEvents t b).kfe = s.kfe ∧
      (s.lossEvents t b).cyt = s.cyt ∧ (s.lossEvents t b).mfa = if s.adec.sync = .halted then s.mfa.halt else s.mfa := by
  obtain ⟨v, frame, rule⟩ := s.lossEvents_parts t b
  rw [if_neg fun x => h x.1] at frame
  rw [rule, ← frame.smap, ← frame.igsu, ← frame.kfe, ← frame.cyt, ← frame.mfa]
  split <;> exact ⟨rfl, rfl, rfl, rfl, rfl⟩

/-- Short of HALTED the counts of MFA and its block go on. -/
theorem State.lossEvents_counts (h : s.adec.sync ≠ .halted) (t : Stamp) (b : SyncState) :
    (s.lossEvents t b).mfa.counts = s.mfa.counts ∧ (s.lossEvents t b).mfa.blockCycles = s.mfa.blockCycles := by
  obtain ⟨v, frame, rule⟩ := s.lossEvents_parts t b
  rw [rule, if_neg h, frame.mfa]
  split
  · exact (s.syncLoss_lost t).2
  · exact ⟨rfl, rfl⟩

/-- R79: in HALTED the block and the roughness history are clear. -/
theorem State.lossEvents_halted (h : s.adec.sync = .halted) (t : Stamp) (b : SyncState) :
    (s.lossEvents t b).mfa.history = [] ∧ (s.lossEvents t b).mfa.blockCycles = 0 ∧
      ∀ c : Cyl, (s.lossEvents t b).mfa.counts.get c = { s.mfa.counts.get c with block := 0 } := by
  obtain ⟨v, frame, rule⟩ := s.lossEvents_parts t b
  have counts : v.mfa.counts = s.mfa.counts := by
    rw [frame.mfa]
    split
    · exact (s.syncLoss_lost t).2.1
    · rfl
  rw [rule, if_pos h, ← counts]
  exact ⟨rfl, rfl, fun c => PerCyl.get_mapWith _ _ c⟩

/-- While no capture fills, the loss events leave capture unit and ports. -/
theorem State.lossEvents_idle (h : s.cap.unit ≠ .filling) (t : Stamp) (b : SyncState) :
    (s.lossEvents t b).cap = s.cap ∧ (s.lossEvents t b).ports = s.ports := by
  have first : (if b = .fullSync ∧ s.adec.sync ≠ .fullSync then s.syncLoss t else s).cap = s.cap ∧
      (if b = .fullSync ∧ s.adec.sync ≠ .fullSync then s.syncLoss t else s).ports = s.ports := by
    split
    · exact ⟨(s.syncLoss_keeps t).idle h, s.syncLoss_idle h t⟩
    · exact ⟨rfl, rfl⟩
  unfold State.lossEvents
  dsimp only
  rw [(State.halt_cap _ _).1, (State.halt_cap _ _).2]
  split
  · unfold State.capCrankLoss
    rw [Cap.fillingAs_none (by rw [first.1]; exact h)]
    exact first
  · exact first

/-- What the raising of events and the loss events may change: the blocks that act on them, the capture unit and the ports. -/
theorem EventFrame.eq (h : EventFrame s u) (hk : u.kna = s.kna) :
    u = { s with smap := u.smap, igsu := u.igsu, mfa := u.mfa, kfe := u.kfe, cyt := u.cyt, ports := u.ports, cap := u.cap } := by
  obtain ⟨⟨running, startUp, timebase, pending⟩, adec, ops, cfg⟩ := h
  cases u
  dsimp only at running startUp timebase pending adec ops cfg hk
  rw [running, startUp, timebase, pending, adec, ops, cfg, hk]

theorem State.lossEvents_blocks (s : State) (t : Stamp) (b : SyncState) :
    let u := s.lossEvents t b
    u = { s with smap := u.smap, igsu := u.igsu, mfa := u.mfa, kfe := u.kfe, cyt := u.cyt, ports := u.ports, cap := u.cap } :=
  EventFrame.eq (s.lossEvents_frame t b).1 (s.lossEvents_frame t b).2

/-! ### A tooth edge in crank sync (R3, R9, R12) -/

theorem exec_toothEdge_sync (h : s.running = true) (hs : s.adec.sync = .crankSync ∨ s.adec.sync = .fullSync) (t : Stamp) :
    exec (.crankEdge t s.toothEdge) s = .next ((s.setTimebase t).crankInSync t) := by
  rw [exec_toothEdge h, State.crankTooth, State.setTimebase_adec]
  obtain e | e := hs <;> rw [e]

theorem Adec.rejects_iff {a : Adec} {e : Stamp} (h : a.lastEdge = some e) (t : Stamp) :
    a.rejects t = true ↔ 4 * (t - e).toNat < a.toothPeriod := by
  rw [Adec.rejects, h]
  exact decide_eq_true_iff

theorem Adec.atGapPosition_iff (a : Adec) (img : Image) :
    a.atGapPosition img = true ↔ img.nPos ≤ a.toothIndex + 1 + img.missing := decide_eq_true_iff

theorem Adec.accept_period {a : Adec} {e : Stamp} (h : a.lastEdge = some e) (img : Image) (t : Stamp) :
    (a.accept img t).period = (t - e).toNat := by
  rw [Adec.accept, Adec.newPeriod, h]
  rfl

/-- Where a TOOTH capture records nothing, an edge leaves the capture unit. -/
theorem State.toothTaken_none (h : NoToothCapture s) (t : Stamp) (P : Nat) (g : Bool) : s.toothTaken t P g = s := by
  unfold State.toothTaken
  split
  · rfl
  · next r hr =>
    by_cases hu : s.cap.unit = .filling
    · exact if_pos (.inr (h hu r hr))
    · exact if_pos (.inl hu)

theorem State.toothTaken_frame (s : State) (t : Stamp) (P : Nat) (g : Bool) : CapFrame s (s.toothTaken t P g) := by
  cases g
  · rw [← s.noticePeriod_taken]
    exact s.noticePeriod_frame P
  · rw [← State.noticeGapEnd_taken]
    exact (s.noticePeriod_frame P).trans (State.noticeGapEnd_frame _ t)

/-- R3, R9: an edge that is accepted where the wheel has it keeps crank sync: the capture unit takes it, and in FULL_SYNC a cycle
boundary or the layout events up to its angle follow. -/
theorem State.crankInSync_accepts {e t : Stamp} (he : s.adec.lastEdge = some e) (accepted : s.adec.toothPeriod ≤ 4 * (t - e).toNat)
    {gap : Bool} (ends : s.adec.endsGap s.cfg.active t = gap) (place : s.adec.atGapPosition s.cfg.active = gap) :
    let a := s.adec.tooth s.cfg.active t gap
    let w := (s.setAdec a).toothTaken t (t - e).toNat gap
    s.crankInSync t =
      if s.adec.sync = .fullSync then
        if a.toothAngle < s.adec.toothAngle then w.cycleBoundary t a.toothAngle else w.reachAngle t a.toothAngle
      else w := by
  intro a w
  have taken : (if gap then ((s.noticePeriod (t - e).toNat).setAdec a).noticeGapEnd t
      else (s.noticePeriod (t - e).toNat).setAdec a) = w := by
    rw [s.noticePeriod_adec]
    cases gap
    · exact State.noticePeriod_taken _ _ _
    · exact State.noticeGapEnd_taken _ _ _
  have frame := s.noticePeriod_frame (t - e).toNat
  unfold State.crankInSync
  dsimp only
  rw [if_neg (by rw [Adec.rejects_iff he]; exact Nat.not_lt.mpr accepted), if_pos (by rw [ends, place]), ends,
    Adec.accept_period he]
  unfold State.toothResults
  dsimp only
  rw [frame.adec, frame.cfg, taken]

/-- The state in which the edge at `t` has left the decoder `a` and its capture, as the claims name it. -/
theorem State.edgeTaken_tooth {e t : Stamp} (he : s.adec.lastEdge = some e) (gap : Bool) :
    let a := s.adec.tooth s.cfg.active t gap
    s.edgeTaken t a = ((s.setTimebase t).setAdec a).toothTaken t (t - e).toNat gap := by
  intro a
  have period : a.period = (t - e).toNat := by
    have := Adec.accept_period he s.cfg.active t
    cases gap <;> exact this
  have first : decide (a.toothIndex = 0) = gap := by cases gap <;> simp [a, Adec.tooth]
  unfold State.edgeTaken
  rw [period, first]
  rfl

theorem exec_toothEdge_accepted (h : s.running = true) (hs : s.adec.sync = .crankSync ∨ s.adec.sync = .fullSync) {e t : Stamp}
    (he : s.adec.lastEdge = some e) (accepted : s.adec.toothPeriod ≤ 4 * (t - e).toNat) {gap : Bool}
    (ends : s.adec.endsGap s.cfg.active t = gap) (place : s.adec.atGapPosition s.cfg.active = gap) :
    let a := s.adec.tooth s.cfg.active t gap
    let w := s.edgeTaken t a
    exec (.crankEdge t s.toothEdge) s = .next
      (if s.adec.sync = .fullSync then
        if a.toothAngle < s.adec.toothAngle then w.cycleBoundary t a.toothAngle else w.reachAngle t a.toothAngle
      else w) := by
  intro a w
  rw [exec_toothEdge_sync h hs, State.crankInSync_accepts (s := s.setTimebase t) he accepted ends place,
    show w = _ from State.edgeTaken_tooth he gap]
  rfl

/-- The gap test and the place of an edge that keeps crank sync, with the decoder it leaves. -/
theorem KeepsCrankSync.tooth {t : Stamp} {a : Adec} (h : KeepsCrankSync s t a) :
    ∃ (e : Stamp) (gap : Bool), s.adec.lastEdge = some e ∧ s.adec.toothPeriod ≤ 4 * (t - e).toNat ∧
      s.adec.endsGap s.cfg.active t = gap ∧ s.adec.atGapPosition s.cfg.active = gap ∧ a = s.adec.tooth s.cfg.active t gap := by
  obtain ⟨e, he, accepted, ⟨gap, place, rfl⟩ | ⟨gap, place, g, hg, rfl⟩⟩ := h
  · refine ⟨e, false, he, accepted, Bool.eq_false_iff.mpr (mt (Adec.endsGap_iff he _ t).mp gap),
      Bool.eq_false_iff.mpr (mt (Adec.atGapPosition_iff _ _).mp (Nat.not_le.mpr place)), ?_⟩
    unfold Adec.tooth
    dsimp only
    rw [if_neg (by decide), Adec.accept_plain he gap]
    rfl
  · refine ⟨e, true, he, accepted, (Adec.endsGap_iff he _ t).mpr gap, (Adec.atGapPosition_iff _ _).mpr place, ?_⟩
    unfold Adec.tooth
    dsimp only
    rw [if_pos rfl, Adec.accept_gap he gap, Adec.gapEnd, show (Adec.afterPeriod _ _ _ _).lastGapEnd = some g from hg]
    rfl

/-- R17: the layout events between the angle passed and the angle reached; when it has not passed any, there are none. -/
theorem State.reachAngle_eq (s : State) (t : Stamp) (x : Nat) :
    s.reachAngle t x = (s.cfg.active.eventsBetween s.adec.nextAngle x).foldl (State.raise t s.adec.cycle)
      { s with adec := { s.adec with nextAngle := max s.adec.nextAngle (x + 1) } } := by
  unfold State.reachAngle
  split
  · next h => rw [Nat.max_eq_right (by omega)]; rfl
  · next h =>
    have none : s.cfg.active.eventsBetween s.adec.nextAngle x = [] := by
      rw [List.eq_nil_iff_forall_not_mem]
      intro e he
      have := Image.mem_eventsBetween.mp he
      omega
    rw [none, Nat.max_eq_left (by omega)]
    rfl

/-- Settles O7: the rejected edge, and the accepted one in CRANK_SYNC and in FULL_SYNC short of the cycle boundary. -/
theorem noiseFilter : Obligations.NoiseFilter := by
  refine ⟨fun t e s h hs he few => ?_, fun t a s h keeps noCapture => ?_⟩
  · rw [exec_toothEdge_sync h hs]
    unfold State.crankInSync
    exact congrArg _ (if_pos ((Adec.rejects_iff he t).mpr few))
  · obtain ⟨e, gap, he, accepted, ends, place, rfl⟩ := keeps.tooth
    have same : (s.adec.tooth s.cfg.active t gap).nextAngle = s.adec.nextAngle ∧
        (s.adec.tooth s.cfg.active t gap).cycle = s.adec.cycle := by
      unfold Adec.tooth Adec.accept Adec.gapEnd
      cases gap <;> cases s.adec.newPeriod t <;> exact ⟨rfl, rfl⟩
    have idle : s.edgeTaken t (s.adec.tooth s.cfg.active t gap) =
        { s with timebase := t, adec := s.adec.tooth s.cfg.active t gap } := State.toothTaken_none (by exact noCapture) _ _ _
    refine ⟨fun hs => ?_, fun hs below => ?_⟩
    · rw [exec_toothEdge_accepted h (.inl hs) he accepted ends place, if_neg (by rw [hs]; decide), idle]
    · rw [exec_toothEdge_accepted h (.inr hs) he accepted ends place, if_pos hs, if_neg (Nat.not_lt.mpr below), idle,
        State.reachAngle_eq, ← same.1, ← same.2]

/-! ### The loss of crank sync (R9) -/

/-- The period taken by a TOOTH capture changes the capture unit alone, whatever the time. -/
theorem State.noticePeriod_arrived (s : State) (t : Stamp) (P : Nat) :
    (s.setTimebase t).noticePeriod P = { s with timebase := t, cap := (s.noticePeriod P).cap } := by
  unfold State.noticePeriod
  rw [State.setTimebase_cap]
  split
  · rfl
  · split <;> rfl

/-- The decoder that a loss of crank sync leaves: the edge is the first of SEEK. -/
theorem Adec.accept_lost {a : Adec} {e : Stamp} (h : a.lastEdge = some e) (img : Image) (t : Stamp) :
    { (a.accept img t).enterSeek (some t) with syncLossTotal := bump 65535 a.syncLossTotal } =
      { a.seeking (some t) 1 with stallRef := t, syncLossTotal := min 65535 (a.syncLossTotal + 1) } := by
  unfold Adec.accept Adec.newPeriod
  rw [h]
  rfl

/-- R9: an accepted edge whose gap test and place differ loses crank sync. -/
theorem State.crankInSync_loses {e t : Stamp} (he : s.adec.lastEdge = some e) (accepted : s.adec.toothPeriod ≤ 4 * (t - e).toNat)
    (off : s.adec.endsGap s.cfg.active t ≠ s.adec.atGapPosition s.cfg.active) :
    s.crankInSync t = (s.noticePeriod (t - e).toNat).changeSyncApply t
      { (s.adec.accept s.cfg.active t).enterSeek (some t) with syncLossTotal := bump 65535 s.adec.syncLossTotal }
      (if s.adec.endsGap s.cfg.active t then .gapMisplaced else .toothOverrun) := by
  rw [← Adec.accept_period he s.cfg.active]
  unfold State.crankInSync
  exact (if_neg (by rw [Adec.rejects_iff he]; exact Nat.not_lt.mpr accepted)).trans (if_neg off)

/-- Settles O11: the misplaced gap and the missing one, with the loss events' share of each block. -/
theorem crankSyncLost : Obligations.CrankSyncLost := by
  intro t e s h hs pending he accepted gap atGap misplaced
  let after : Adec :=
    { s.adec.seeking (some t) 1 with stallRef := t, syncLossTotal := min 65535 (s.adec.syncLossTotal + 1) }
  let cause : SyncCause := if s.adec.endsGap s.cfg.active t then .gapMisplaced else .toothOverrun
  let lost : State :=
    { s with timebase := t, adec := after, cap := (s.toothTaken t (t - e).toNat false).cap
             ports := syncPorts s.ports (syncRecord t s.adec.cycle .seek cause s.adec.polarity) }
  have ends := Adec.endsGap_iff he s.cfg.active t
  have place := Adec.atGapPosition_iff s.adec s.cfg.active
  have off : s.adec.endsGap s.cfg.active t ≠ s.adec.atGapPosition s.cfg.active := by
    rw [Ne, Bool.eq_iff_iff, ends, place]
    tauto
  have rule : exec (.crankEdge t s.toothEdge) s = .next (lost.lossEvents t s.adec.sync) := by
    rw [exec_toothEdge_sync h hs, State.crankInSync_loses (s := s.setTimebase t) he accepted off, State.noticePeriod_arrived,
      State.setTimebase_adec, State.setTimebase_cfg, Adec.accept_lost he, State.changeSyncApply_none (by exact pending),
      State.changeSync_eq, s.noticePeriod_taken t]
    rfl
  refine ⟨_, cause, rule, fun g => if_pos (ends.mpr g), fun g => if_neg (mt ends.mp g), State.lossEvents_blocks lost t _,
    fun full => ⟨?_, State.lossEvents_counts (by simp [lost, after, Adec.seeking]) t _⟩, fun crank => ?_, fun free => ?_, rfl⟩
  · rw [full]
    exact (State.lossEvents_lost (s := lost) (by simp [lost, after, Adec.seeking]) t).congr rfl rfl rfl
  · obtain ⟨hsmap, higsu, hkfe, hcyt, hmfa⟩ := State.lossEvents_kept (s := lost) (b := s.adec.sync) (by rw [crank]; decide) t
    exact ⟨hsmap, higsu, hmfa.trans (if_neg (by simp [lost, after, Adec.seeking])), hkfe, hcyt⟩
  · have same : lost.cap = s.cap := by
      show (s.toothTaken t _ false).cap = s.cap
      rw [State.toothTaken_idle (by rw [free]; decide)]
    obtain ⟨hcap, hports⟩ := State.lossEvents_idle (s := lost) (by rw [same, free]; decide) t s.adec.sync
    exact ⟨hcap.trans same, hports⟩

/-! ### Cam edges (R14, R15) -/

theorem inCamWindow_iff {img : Image} (lo : img.camLo < 11520) (hi : img.camHi < 11520) (x : Nat) :
    inCamWindow img x = true ↔ InWindow img.camLo img.camHi x := by
  unfold inCamWindow InWindow
  simp only [decide_eq_true_eq, Config.cycleUnits]
  omega

theorem exec_camEdge_counts (h : s.running = true) {e : Edge} (he : CamCounts s.cfg.active e) (t : Stamp) :
    exec (.camEdge t e) s = .next ((s.setTimebase t).camSelectedEdge t) := by
  show execCamEdge t e s = _
  rw [execCamEdge, onEvent_running h]
  exact congrArg _ (if_pos ((camSelected_iff _ e).mpr he))

theorem exec_camEdge_crankSync (h : s.running = true) (hs : s.adec.sync = .crankSync) {e : Edge} (he : CamCounts s.cfg.active e)
    (t : Stamp) : exec (.camEdge t e) s = .next ((s.setTimebase t).camInCrank t) := by
  rw [exec_camEdge_counts h he, State.camSelectedEdge, State.setTimebase_adec, hs]

theorem exec_camEdge_fullSync (h : s.running = true) (hs : s.adec.sync = .fullSync) {e : Edge} (he : CamCounts s.cfg.active e)
    (t : Stamp) : exec (.camEdge t e) s = .next ((s.setTimebase t).camInFull t) := by
  rw [exec_camEdge_counts h he, State.camSelectedEdge, State.setTimebase_adec, hs]

/-- R14: the phase of a cam edge is the one of the two cycle angles that lies in the window, the first first. -/
theorem camPhase_of_inWindow {img : Image} (lo : img.camLo < 11520) (hi : img.camHi < 11520) {a x : Nat}
    (hx : x = a ∨ (x = a + 5760 ∧ ¬ InWindow img.camLo img.camHi a)) (inside : InWindow img.camLo img.camHi x) :
    camPhase img a = some x := by
  unfold camPhase
  obtain rfl | ⟨rfl, out⟩ := hx
  · exact if_pos ((inCamWindow_iff lo hi _).mpr inside)
  · exact (if_neg (mt (inCamWindow_iff lo hi _).mp out)).trans (if_pos ((inCamWindow_iff lo hi _).mpr inside))

theorem camPhase_outside {img : Image} (lo : img.camLo < 11520) (hi : img.camHi < 11520) {a : Nat}
    (first : ¬ InWindow img.camLo img.camHi a) (second : ¬ InWindow img.camLo img.camHi (a + 5760)) : camPhase img a = none := by
  unfold camPhase
  rw [if_neg (mt (inCamWindow_iff lo hi _).mp first), if_neg (mt (inCamWindow_iff lo hi _).mp second)]

/-- With an empty request list nothing is latched or granted. -/
theorem State.latchAll_empty (h : s.cap.requests = []) (t : Stamp) (conds : Request → Byte) : s.latchAll t conds = s := by
  unfold State.latchAll
  have same : (s.modCap fun c => { c with requests := c.requests.map fun r => r.latch (conds r) }) = s := by
    show { s with cap := { s.cap with requests := s.cap.requests.map _ } } = s
    rw [h, List.map_nil, ← h]
  rw [same]
  exact State.grant_idle (by rw [h]; simp) t

theorem State.camInCrank_enters {x : Nat} {t : Stamp} (h : camPhase s.cfg.active (s.adec.revAngle s.cfg.active t) = some x) :
    s.camInCrank t =
      ((s.changeSync t (s.adec.enterFull s.cfg.active (s.adec.revAngle s.cfg.active t) x) .camPhase).position x).noticeFullSync t := by
  unfold State.camInCrank
  dsimp only
  rw [h]

theorem State.camInCrank_fault {t : Stamp} (h : camPhase s.cfg.active (s.adec.revAngle s.cfg.active t) = none) :
    s.camInCrank t = { s with adec := { s.adec with camFaultTotal := min 65535 (s.adec.camFaultTotal + 1) } } := by
  unfold State.camInCrank
  dsimp only
  rw [h]
  rfl

/-- Settles O14: the phase that fits, and the edge whose two angles both lie outside. -/
theorem camPhase_holds : Obligations.CamPhase := by
  intro t e s h hs he lo hi img a rev
  rw [exec_camEdge_crankSync h hs he]
  refine ⟨fun x hx inside => ?_, fun first second => ?_⟩
  · rw [State.camInCrank_enters (s := s.setTimebase t) (camPhase_of_inWindow lo hi hx inside)]
    have small : a < 5760 := Adec.revAngle_lt _ _ _
    let y := (x + 11520 - (a + 5760 - rev) % 5760) % 11520
    let entered : State :=
      { s with
        timebase := t
        adec := { s.adec with sync := .fullSync, toothAngle := y, nextAngle := x + 1, camFaults := 0, inWindow := true }
        smap := ⟨some (img.runStart + x / img.slotLen), .replicate 6 false⟩
        ports := syncPorts s.ports (syncRecord t s.adec.cycle .fullSync .camPhase s.adec.polarity) }
    have enters : ((s.setTimebase t).changeSync t (s.adec.enterFull img a x) .camPhase).position x = entered := by
      rw [State.changeSync_eq]
      unfold State.lossEvents
      dsimp only
      rw [if_neg (by simp [Adec.enterFull]), if_neg (by simp [Adec.enterFull]), if_neg (by simp [Adec.enterFull])]
      rfl
    rw [State.setTimebase_adec, State.setTimebase_cfg, enters]
    have frame := entered.noticeFullSync_frame t
    refine ⟨_, y, rfl, Nat.mod_lt _ (by decide), by omega, frame.eq, fun none => ?_, ?_⟩
    · rw [State.noticeFullSync, State.latchAll_empty (by exact none)]
      exact ⟨rfl, rfl⟩
    · exact congrArg (State.noticeFullSync · t) (frame.self _ _).symm
  · rw [State.camInCrank_fault (s := s.setTimebase t) (camPhase_outside lo hi first second)]
    rfl

/-- R15: the drop out of FULL_SYNC that a third cam fault brings, when no commit is pending. -/
theorem State.camDrop_lost {a : Adec} (hs : s.adec.sync = .fullSync) (pending : s.cfg.pendingCommit = none) (t : Stamp) :
    let v : State :=
      { s with adec := a.dropToCrank
               ports := syncPorts s.ports (syncRecord t a.cycle .crankSync .camFault a.polarity) }
    let u := v.lossEvents t .fullSync
    s.camDrop t a = u ∧
    u = { s with adec := a.dropToCrank, smap := u.smap, igsu := u.igsu, mfa := u.mfa, kfe := u.kfe, cyt := u.cyt,
                 ports := u.ports, cap := u.cap } ∧
    LostSync s u ∧ u.mfa.counts = s.mfa.counts ∧ u.mfa.blockCycles = s.mfa.blockCycles ∧
    (s.cap.unit = .free → u.cap = s.cap ∧
      u.ports = syncPorts s.ports (syncRecord t a.cycle .crankSync .camFault a.polarity)) := by
  intro v u
  have lost := State.lossEvents_lost (s := v) (by simp [v, Adec.dropToCrank]) t
  obtain ⟨hcounts, hblock⟩ := State.lossEvents_counts (s := v) (by simp [v, Adec.dropToCrank]) t .fullSync
  refine ⟨?_, State.lossEvents_blocks v t _, lost.congr rfl rfl rfl, hcounts, hblock, fun free =>
    State.lossEvents_idle (s := v) (by show s.cap.unit ≠ _; rw [free]; decide) t .fullSync⟩
  unfold State.camDrop
  rw [State.changeSyncApply_none pending, State.changeSync_eq, hs]
  rfl

/-- Settles O15: an edge inside the window, an ignored one, a counted fault and the third one. -/
theorem camFaults : Obligations.CamFaults := by
  intro t e s h hs he lo hi img x counted
  have window := inCamWindow_iff (img := img) lo hi x
  rw [exec_camEdge_fullSync h hs he]
  unfold State.camInFull
  dsimp only
  rw [State.setTimebase_adec, State.setTimebase_cfg]
  refine ⟨fun inside => congrArg _ (if_pos (window.mpr inside)), fun out both => ?_, fun out one few => ?_, fun out one third pending => ?_⟩
  · rw [if_neg (mt window.mp out), if_pos both]
    rfl
  · rw [if_neg (mt window.mp out), if_neg one, if_neg (by simp only [Adec.countCamFault]; omega)]
    rfl
  · rw [if_neg (mt window.mp out), if_neg one, if_pos (by simp only [Adec.countCamFault]; omega)]
    obtain ⟨rule, blocks, lost, hcounts, hblock, idle⟩ :=
      State.camDrop_lost (s := s.setTimebase t) (a := s.adec.countCamFault) hs pending t
    rw [rule]
    exact ⟨_, rfl, blocks, lost.congr rfl rfl rfl, hcounts, hblock, idle, rfl⟩

/-! ### The stall (R18) -/

theorem State.stallDue_iff (s : State) (t : Stamp) :
    s.stallDue t = true ↔ s.adec.sync ≠ .halted ∧ s.cfg.active.stallMs * 2000 ≤ (t - s.adec.stallRef).toNat := by
  rw [State.stallDue, Bool.and_eq_true, decide_eq_true_eq, decide_eq_true_eq]
  rfl

theorem exec_stall_due (h : s.running = true) {t : Stamp} (due : s.stallDue t = true) :
    exec (.stall t) s = .next ((s.setTimebase t).changeSyncApply t (s.adec.enterHalted s.cfg.active) .stall) := by
  show execStall t s = _
  rw [execStall, onEvent_running h]
  exact congrArg _ (if_pos due)

theorem exec_stall_early (h : s.running = true) {t : Stamp} (due : ¬ s.stallDue t = true) :
    exec (.stall t) s = .next { s with timebase := t } := by
  show execStall t s = _
  rw [execStall, onEvent_running h]
  exact congrArg _ (if_neg due)

/-- Settles O16: the stall that is due, the one commanded early and the one in HALTED. -/
theorem stallHalts : Obligations.StallHalts := by
  intro t s h
  refine ⟨fun hs late pending => ?_, fun _ early => exec_stall_early h fun due => ?_, fun hs => exec_stall_early h fun due => ?_⟩
  · let v : State :=
      { s with
        timebase := t
        adec := s.adec.enterHalted s.cfg.active
        ports := syncPorts s.ports
          (syncRecord t s.adec.cycle .halted .stall (s.adec.enterHalted s.cfg.active).polarity) }
    have rule : exec (.stall t) s = .next (v.lossEvents t s.adec.sync) := by
      rw [exec_stall_due h ((s.stallDue_iff t).mpr ⟨hs, late⟩), State.changeSyncApply_none (by exact pending), State.changeSync_eq]
      rfl
    have adec : (v.lossEvents t s.adec.sync).adec = v.adec := (v.lossEvents_frame t _).1.adec
    obtain ⟨history, block, counts⟩ := State.lossEvents_halted (s := v) rfl t s.adec.sync
    refine ⟨_, rule, State.lossEvents_blocks v t _, history, block, counts, fun full => ?_, fun notFull => ?_, fun free => ?_, ?_⟩
    · rw [full]
      exact (State.lossEvents_lost (s := v) (by simp [v, Adec.enterHalted]) t).congr rfl rfl rfl
    · obtain ⟨hsmap, higsu, hkfe, hcyt, hmfa⟩ := State.lossEvents_kept (s := v) notFull t
      rw [hmfa, if_pos (show v.adec.sync = .halted from rfl)]
      exact ⟨hsmap, higsu, hkfe, hcyt, rfl, rfl⟩
    · rw [adec]
      exact State.lossEvents_idle (s := v) (by show s.cap.unit ≠ _; rw [free]; decide) t _
    · rw [adec]
  · exact absurd ((s.stallDue_iff t).mp due).2 (Nat.not_le.mpr early)
  · exact ((s.stallDue_iff t).mp due).1 hs

/-! ### The cycle boundary (R16) -/

/-- R75: the RATE records of the cylinders at or above the limit, in number order, on every port. -/
theorem State.emitRate_fold (t : Stamp) (l : List Cyl) (s : State) :
    l.foldl (State.emitRate t) s =
      { s with
        ports := s.ports.map fun q =>
          (l.filter fun c => decide (s.cfg.active.rateLimit ≤ (s.mfa.counts.get c).block)).foldl
            (fun q c => offered ⟨some c, s.adec.cycle, t, .rate (s.mfa.counts.get c).block s.cfg.active.blockLength⟩ q) q } := by
  induction l generalizing s with
  | nil => rfl
  | cons c l ih =>
    rw [List.foldl_cons, ih]
    by_cases due : s.cfg.active.rateLimit ≤ (s.mfa.counts.get c).block
    · have told : State.emitRate t s c =
          s.emit ⟨some c, s.adec.cycle, t, .rate (s.mfa.counts.get c).block s.cfg.active.blockLength⟩ := if_pos due
      rw [told, List.filter_cons_of_pos (by simpa using due)]
      show { s with ports := (s.ports.map _).map _ } = _
      rw [PerPort.map_map]
      simp only [List.foldl_cons, PortState.offer_eq]
      rfl
    · have silent : State.emitRate t s c = s := if_neg due
      rw [silent, List.filter_cons_of_neg (by simpa using due)]

/-- R75: MFA counts the cycle, and at the block's end offers the RATE records and clears the block. -/
theorem State.blockBoundary_eq (s : State) (t : Stamp) :
    let img := s.cfg.active
    let ends := decide (img.blockLength ≤ s.mfa.blockCycles + 1)
    let rated := allCyls.filter fun c => decide (img.rateLimit ≤ (s.mfa.counts.get c).block)
    s.blockBoundary t = { s with
      mfa := if ends then s.mfa.clearBlock else { s.mfa with blockCycles := s.mfa.blockCycles + 1 }
      ports := if ends then
          s.ports.map fun q => rated.foldl
            (fun q c => offered ⟨some c, s.adec.cycle, t, .rate (s.mfa.counts.get c).block img.blockLength⟩ q) q
        else s.ports } := by
  intro img ends rated
  unfold State.blockBoundary
  by_cases due : img.blockLength ≤ s.mfa.blockCycles + 1
  · rw [if_pos due, State.emitRate_fold, if_pos (decide_eq_true due), if_pos (decide_eq_true due)]
    rfl
  · rw [if_neg due, if_neg (by simpa [ends] using due), if_neg (by simpa [ends] using due)]
    rfl

theorem Ops.boundary_eq (o : Ops) (img : Image) :
    o.boundary img =
      if o.antiLag then { o with set := .setB, tail := 0 }
      else if o.set = .setA then o
      else if img.tailCycles ≤ o.tail + 1 then { o with set := .setA, tail := 0 }
      else { o with tail := o.tail + 1 } := by
  unfold Ops.boundary
  cases h : o.set <;> simp

/-- R15, R16, R52, R75: what ADEC, OPS and MFA make of a boundary tooth. -/
theorem State.boundary_taken (w : State) (t : Stamp) (ht : w.timebase = t) :
    (w.setAdec w.adec.camCheck.newCycle).boundaryWork t = afterBoundary w t w.adec := by
  have cycle : w.adec.camCheck.cycle = w.adec.cycle := by
    unfold Adec.camCheck
    split <;> rfl
  unfold State.boundaryWork
  rw [State.blockBoundary_eq]
  unfold afterBoundary
  dsimp only [State.setOps_mfa, State.setAdec_mfa, State.setOps_cfg, State.setAdec_cfg, State.setOps_ports, State.setAdec_ports,
    State.setAdec_ops, State.setOps_adec, State.setAdec_adec, Adec.newCycle]
  rw [cycle, Ops.boundary_eq]
  subst ht
  rfl

theorem Adec.not_thirdFault {a : Adec} (fine : a.inWindow = true ∨ a.camFaults < 2) : ¬ a.thirdFault = true := by
  unfold Adec.thirdFault Adec.camCheck
  obtain h | h := fine
  · simp [h]
  · cases hw : a.inWindow
    · simp [Adec.countCamFault]
      omega
    · simp

/-- R16, R17: with no commit pending a boundary that is not the third fault passes to the events of both cycles. -/
theorem State.cycleBoundary_passes {w : State} (fine : w.adec.inWindow = true ∨ w.adec.camFaults < 2)
    (full : w.adec.sync = .fullSync) (pending : w.cfg.pendingCommit = none) {t : Stamp} (ht : w.timebase = t) (x : Nat) :
    let v := afterBoundary w t w.adec
    w.cycleBoundary t x =
      (w.cfg.active.eventsBetween 0 x).foldl (State.raise t (w.adec.cycle + 1))
        ((w.cfg.active.eventsBetween w.adec.nextAngle 11519).foldl (State.raise t w.adec.cycle)
          { v with adec := { v.adec with nextAngle := x + 1 } }) := by
  intro v
  have kept : v.adec.sync = .fullSync ∧ v.adec.nextAngle = w.adec.nextAngle := by
    show (if w.adec.inWindow then w.adec else w.adec.faulted).sync = _ ∧
      (if w.adec.inWindow then w.adec else w.adec.faulted).nextAngle = _
    split <;> exact ⟨full, rfl⟩
  have idle : v.cfg.pendingCommit = none := pending
  have back : w.adec.cycle + 1 - 1 = w.adec.cycle := BitVec.add_sub_cancel _ _
  unfold State.cycleBoundary State.finishBoundary State.layoutPending State.movesSegments
  rw [if_neg (Adec.not_thirdFault fine), State.boundary_taken w t ht]
  show (if (match v.cfg.pendingCommit with | some k => _ | none => _) = true then _ else
    if (v.applyPending t).adec.sync = .fullSync then (v.applyPending t).boundaryEvents t x (v.cfg.pendingCommit.isSome && _)
    else _) = _
  rw [idle, State.applyPending_none idle]
  dsimp only
  rw [if_neg (by decide), if_pos kept.1, Option.isSome_none, Bool.false_and]
  unfold State.boundaryEvents
  rw [Image.stillDue_unmoved, Image.stillDue_unmoved, kept.2, show v.adec.cycle = w.adec.cycle + 1 from rfl, back]
  rfl

theorem State.cycleBoundary_drops {w : State} (mark : w.adec.inWindow = false) (third : 2 ≤ w.adec.camFaults) (t : Stamp) (x : Nat) :
    w.cycleBoundary t x = w.camDrop t w.adec.countCamFault := by
  have check : w.adec.camCheck = w.adec.countCamFault := if_neg (by rw [mark]; decide)
  unfold State.cycleBoundary Adec.thirdFault
  rw [check, if_pos (by simp [mark, Adec.countCamFault]; omega)]

/-- What an accepted edge that keeps crank sync leaves of the decoder. -/
theorem Adec.tooth_kept (a : Adec) (img : Image) (t : Stamp) (gap : Bool) :
    let b := a.tooth img t gap
    b.sync = a.sync ∧ b.inWindow = a.inWindow ∧ b.camFaults = a.camFaults ∧ b.cycle = a.cycle ∧ b.nextAngle = a.nextAngle ∧
      b.polarity = a.polarity ∧ b.syncLossTotal = a.syncLossTotal ∧ b.camFaultTotal = a.camFaultTotal := by
  unfold Adec.tooth Adec.accept Adec.gapEnd
  cases gap <;> cases a.newPeriod t <;> exact ⟨rfl, rfl, rfl, rfl, rfl, rfl, rfl, rfl⟩

/-- What it measures: the period, the index, T_rev at a gap end and the tooth's angle (R9, R10, R12). -/
theorem Adec.tooth_measured {a : Adec} {e : Stamp} (he : a.lastEdge = some e) (img : Image) (t : Stamp) (gap : Bool) :
    let b := a.tooth img t gap
    b.lastEdge = some t ∧ b.period = (t - e).toNat ∧
      b.toothAngle = (a.toothAngle + if gap then (img.missing + 1) * img.toothAngle else img.toothAngle) % 11520 ∧
      (gap = false → b.toothIndex = a.toothIndex + 1 ∧ b.trev = a.trev ∧ b.lastGapEnd = a.lastGapEnd) ∧
      (gap = true → b.toothIndex = 0 ∧ b.lastGapEnd = some t ∧ ∀ g, a.lastGapEnd = some g → b.trev = (t - g).toNat) := by
  have period := Adec.accept_period he img t
  have accepted : (a.accept img t).lastEdge = some t ∧ (a.accept img t).trev = a.trev ∧
      (a.accept img t).lastGapEnd = a.lastGapEnd := by
    unfold Adec.accept
    split <;> exact ⟨rfl, rfl, rfl⟩
  obtain ⟨edge, trev, gapEnd⟩ := accepted
  cases gap
  · exact ⟨edge, period, rfl, fun _ => ⟨rfl, trev, gapEnd⟩, fun h => absurd h (by decide)⟩
  · refine ⟨edge, period, rfl, fun h => absurd h (by decide), fun _ => ⟨rfl, rfl, fun g hg => ?_⟩⟩
    show (a.accept img t).lastGapEnd.elim 0 _ = _
    rw [gapEnd, hg]
    rfl

/-- The raising of events keeps decoder, operating state and images. -/
theorem State.raises_frame (t : Stamp) (c : Half) (l : List LayoutEvent) (s : State) : EventFrame s (l.foldl (State.raise t c) s) :=
  s.raiseAll_frame t c l

theorem State.edgeTaken_frame (s : State) (t : Stamp) (a : Adec) : CapFrame { s with timebase := t, adec := a } (s.edgeTaken t a) :=
  State.toothTaken_frame _ t _ _

theorem exec_boundary (h : s.running = true) (hs : s.adec.sync = .fullSync) {e t : Stamp} (he : s.adec.lastEdge = some e)
    (accepted : s.adec.toothPeriod ≤ 4 * (t - e).toNat) {gap : Bool} (ends : s.adec.endsGap s.cfg.active t = gap)
    (place : s.adec.atGapPosition s.cfg.active = gap) {a : Adec} (ha : s.adec.tooth s.cfg.active t gap = a)
    (wraps : a.toothAngle < s.adec.toothAngle) :
    exec (.crankEdge t s.toothEdge) s = .next ((s.edgeTaken t a).cycleBoundary t a.toothAngle) := by
  subst ha
  exact (exec_toothEdge_accepted h (.inr hs) he accepted ends place).trans
    (congrArg _ ((if_pos hs).trans (if_pos wraps)))

/-- R16, R17: the boundary tooth that passes the cam check, whole. -/
theorem exec_boundary_passes (h : s.running = true) (hs : s.adec.sync = .fullSync) (pending : s.cfg.pendingCommit = none)
    {e t : Stamp} (he : s.adec.lastEdge = some e) (accepted : s.adec.toothPeriod ≤ 4 * (t - e).toNat) {gap : Bool}
    (ends : s.adec.endsGap s.cfg.active t = gap) (place : s.adec.atGapPosition s.cfg.active = gap) {a : Adec}
    (ha : s.adec.tooth s.cfg.active t gap = a) (wraps : a.toothAngle < s.adec.toothAngle)
    (fine : s.adec.inWindow = true ∨ s.adec.camFaults < 2) :
    let v := afterBoundary (s.edgeTaken t a) t a
    exec (.crankEdge t s.toothEdge) s = .next
      ((s.cfg.active.eventsBetween 0 a.toothAngle).foldl (State.raise t (s.adec.cycle + 1))
        ((s.cfg.active.eventsBetween s.adec.nextAngle 11519).foldl (State.raise t s.adec.cycle)
          { v with adec := { v.adec with nextAngle := a.toothAngle + 1 } })) := by
  intro v
  obtain ⟨sync, window, faults, cycle, next, _⟩ := s.adec.tooth_kept s.cfg.active t gap
  rw [ha] at sync window faults cycle next
  have frame := s.edgeTaken_frame t a
  have hadec : (s.edgeTaken t a).adec = a := frame.adec
  have passes := State.cycleBoundary_passes (w := s.edgeTaken t a) (by rw [hadec, window, faults]; exact fine)
    (by rw [hadec, sync]; exact hs) (by rw [frame.cfg]; exact pending) frame.timebase a.toothAngle
  rw [hadec, frame.cfg, cycle, next] at passes
  rw [exec_boundary h hs he accepted ends place ha wraps, passes]

/-- R52: the set and the tail that a boundary leaves. -/
theorem Ops.boundary_cases (o : Ops) (img : Image) :
    o.boundary img = { o with set := (o.boundary img).set, tail := (o.boundary img).tail } ∧
    (o.antiLag = true → (o.boundary img).set = .setB ∧ (o.boundary img).tail = 0) ∧
    (o.antiLag = false → o.set = .setB → o.tail + 1 < img.tailCycles →
      (o.boundary img).set = .setB ∧ (o.boundary img).tail = o.tail + 1) ∧
    (o.antiLag = false → o.set = .setB → img.tailCycles ≤ o.tail + 1 →
      (o.boundary img).set = .setA ∧ (o.boundary img).tail = 0) ∧
    (o.antiLag = false → o.set = .setA → (o.boundary img).set = .setA ∧ (o.boundary img).tail = o.tail) := by
  rw [Ops.boundary_eq]
  refine ⟨?_, fun lag => ?_, fun lag set short => ?_, fun lag set long => ?_, fun lag set => ?_⟩
  · split
    · rfl
    · split
      · rfl
      · split <;> rfl
  · rw [if_pos lag]
    exact ⟨rfl, rfl⟩
  · rw [if_neg (by simp [lag]), if_neg (by simp [set]), if_neg (Nat.not_le.mpr short)]
    exact ⟨set, rfl⟩
  · rw [if_neg (by simp [lag]), if_neg (by simp [set]), if_pos long]
    exact ⟨rfl, rfl⟩
  · rw [if_neg (by simp [lag]), if_pos set]
    exact ⟨set, rfl⟩

theorem afterBoundary_ops (w : State) (t : Stamp) (a : Adec) : (afterBoundary w t a).ops = w.ops.boundary w.cfg.active :=
  (Ops.boundary_eq _ _).symm

/-- Settles O17: the boundary tooth that passes the cam check, field by field and whole, and the one that drops the decoder. -/
theorem cycleBoundary : Obligations.CycleBoundary := by
  refine ⟨fun t e s h hs pending he accepted mark => ?_, fun t a s h hs pending keeps wraps => ?_⟩
  · intro img gap atGap step hstep wraps
    have gapTest := Adec.endsGap_iff he img t
    have gapPlace := s.adec.atGapPosition_iff img
    obtain ⟨g, ends, place, hg, hstep⟩ : ∃ g : Bool, s.adec.endsGap img t = g ∧ s.adec.atGapPosition img = g ∧
        (g = true ↔ gap) ∧ step = if g then (img.missing + 1) * img.toothAngle else img.toothAngle := by
      obtain ⟨yes, there, rfl⟩ | ⟨no, short, rfl⟩ := hstep
      · exact ⟨true, gapTest.mpr yes, gapPlace.mpr there, iff_of_true rfl yes, rfl⟩
      · exact ⟨false, Bool.eq_false_iff.mpr (mt gapTest.mp no), Bool.eq_false_iff.mpr (mt gapPlace.mp short),
          iff_of_false (by decide) no, rfl⟩
    obtain ⟨edge, period, angle, plain, gapEnd⟩ := Adec.tooth_measured he img t g
    obtain ⟨sync, window, faults, cycle, next, polarity, losses, totals⟩ := s.adec.tooth_kept img t g
    rw [← hstep] at angle
    generalize ha : s.adec.tooth img t g = a at *
    have taken := s.edgeTaken_frame t a
    let v := afterBoundary (s.edgeTaken t a) t a
    have events := (State.raises_frame t s.adec.cycle (img.eventsBetween s.adec.nextAngle 11519)
      { v with adec := { v.adec with nextAngle := a.toothAngle + 1 } }).trans
      (State.raises_frame t (s.adec.cycle + 1) (img.eventsBetween 0 a.toothAngle) _)
    refine ⟨_, exec_boundary_passes h hs pending he accepted ends place ha (by rw [angle]; exact wraps) (.inl mark), ?_⟩
    have hops : (afterBoundary (s.edgeTaken t a) t a).ops = s.ops.boundary img := by
      rw [afterBoundary_ops, taken.ops, taken.cfg]
    have hcfg : (afterBoundary (s.edgeTaken t a) t a).cfg = s.cfg := taken.cfg
    have hadec : (afterBoundary (s.edgeTaken t a) t a).adec = { a with inWindow := false, cycle := a.cycle + 1 } := by
      show { (if a.inWindow = true then a else a.faulted) with inWindow := false, cycle := a.cycle + 1 } = _
      rw [if_pos (window.trans mark)]
    obtain ⟨shape, lag, tail, back, stays⟩ := s.ops.boundary_cases img
    rw [events.adec, events.ops, events.cfg]
    show (Adec.sync { (afterBoundary (s.edgeTaken t a) t a).adec with nextAngle := a.toothAngle + 1 }) = _ ∧ _
    rw [hops, hcfg, hadec]
    exact ⟨sync.trans hs, by rw [← cycle], rfl, faults, angle, edge, period, losses, totals, rfl,
      fun no => plain (Bool.eq_false_iff.mpr (mt hg.mp no)), fun yes => gapEnd (hg.mpr yes), shape, lag, tail, back, stays⟩
  · obtain ⟨e, g, he, accepted, ends, place, ha⟩ := keeps.tooth
    obtain ⟨sync, window, faults, cycle, next, polarity, losses, totals⟩ := s.adec.tooth_kept s.cfg.active t g
    rw [← ha] at sync window faults cycle next polarity
    intro img w
    refine ⟨fun fine => exec_boundary_passes h hs pending he accepted ends place ha.symm wraps fine, fun mark third => ?_⟩
    have frame : CapFrame { s with timebase := t, adec := a } w := s.edgeTaken_frame t a
    have hadec : w.adec = a := frame.adec
    obtain ⟨rule, blocks, lost, hcounts, hblock, idle⟩ := State.camDrop_lost (s := w) (a := a.countCamFault)
      (by rw [hadec, sync]; exact hs) (by rw [frame.cfg]; exact pending) t
    have drops := State.cycleBoundary_drops (w := w) (by rw [hadec, window]; exact mark) (by rw [hadec, faults]; exact third) t
      a.toothAngle
    rw [hadec] at drops
    rw [exec_boundary h hs he accepted ends place ha.symm wraps, drops, rule]
    have dropped : (a.countCamFault).dropToCrank = a.dropped := rfl
    have named : a.countCamFault.cycle = s.adec.cycle ∧ a.countCamFault.polarity = s.adec.polarity := ⟨cycle, polarity⟩
    rw [dropped, named.1, named.2] at blocks idle lost hcounts hblock ⊢
    refine ⟨_, rfl, blocks.trans ?_, lost.congr frame.mfa frame.kfe frame.cyt, hcounts.trans (congrArg Mfa.counts frame.mfa),
      hblock.trans (congrArg Mfa.blockCycles frame.mfa), fun free => ?_, rfl⟩
    · generalize State.lossEvents _ t .fullSync = u
      exact congrArg (fun y : State => { y with
        adec := a.dropped, smap := u.smap, igsu := u.igsu, mfa := u.mfa, kfe := u.kfe, cyt := u.cyt }) (frame.self u.cap u.ports)
    · have same : w = { s with timebase := t, adec := a } := State.toothTaken_idle (by show s.cap.unit ≠ _; rw [free]; decide) t _ _
      rw [same] at idle ⊢
      exact idle free

end Sys2Proof.Machine
end

section
/-! PROOFS. Speed, the angle clock, the cycle layout, the raising of its events and the ignition sense (sections 1.4, 1.5, 2.3 to 2.5,
3.1): O12, O13, O18 to O20. -/

namespace Sys2Proof.Machine

variable {s u : State}

/-! ### Speed (R11) -/

/-- R11: a revolution time of 1 to 11,998 ticks is more than 10,000 rpm. -/
theorem Adec.overspeed_iff (a : Adec) : a.overspeed = true ↔ 0 < a.trev ∧ a.trev ≤ 11998 := by
  rw [Adec.overspeed, decide_eq_true_eq, Adec.rpm, rpmOf]
  rcases Nat.eq_zero_or_pos a.trev with h | h
  · simp [h]
  · rw [← Nat.succ_le_iff, Nat.le_div_iff_mul_le h]
    omega

/-- Settles O12: each clause from the quotient 120,000,000 / T_rev. -/
theorem speedRule : Obligations.SpeedRule := by
  refine ⟨fun a h => Adec.speed_of_trev_zero h, fun a h => ⟨Nat.div_mul_le_self _ _, ?_⟩, fun a => ?_,
    fun a => decide_eq_true_iff, Adec.overspeed_iff, fun a first img => ⟨rfl, rfl⟩⟩
  · rw [Nat.mul_comm]
    exact Nat.lt_mul_div_succ _ h
  · unfold Adec.band
    omega

/-! ### The angle clock (R12, R13) -/

theorem Adec.travel_eq {a : Adec} {e : Stamp} (h : a.lastEdge = some e) (img : Image) (t : Stamp) :
    a.travel img t = (t - e).toNat * img.toothAngle / a.toothPeriod := by
  rw [Adec.travel, h]
  rfl

/-- No time, no travel. -/
theorem Adec.travel_start {a : Adec} {e : Stamp} (h : a.lastEdge = some e) (img : Image) : a.travel img e = 0 := by
  rw [Adec.travel_eq h]
  simp

theorem Adec.travel_mono {a : Adec} {e t u : Stamp} (h : a.lastEdge = some e) (img : Image) (later : (t - e).toNat ≤ (u - e).toNat) :
    a.travel img t ≤ a.travel img u := by
  rw [Adec.travel_eq h, Adec.travel_eq h]
  exact Nat.div_le_div_right (Nat.mul_le_mul_right _ later)

theorem Adec.nextToothStep_pos {a : Adec} {img : Image} (h : 0 < img.toothAngle) : 0 < a.nextToothStep img := by
  unfold Adec.nextToothStep
  split
  · exact Nat.mul_pos (Nat.succ_pos _) h
  · exact h

/-- Settles O13: every clause is about a minimum of the travel and its caps. -/
theorem angleClock : Obligations.AngleClock := by
  intro a img e t u h _ angle step gone rev
  have hstep : step = a.nextToothStep img := rfl
  have hgone : a.travel img t = gone := Adec.travel_eq h img t
  have positive : 0 < step := hstep ▸ Adec.nextToothStep_pos angle
  have start := Adec.travel_start h img
  have small : rev < 5760 := Nat.mod_lt _ (by decide)
  have hrev : a.toothRevAngle img = rev := rfl
  unfold Adec.cycleAngle Adec.revAngle Adec.interpolate
  rw [← hstep, hgone, start, hrev]
  simp only [Config.cycleUnits, Config.revUnits]
  have mono := Adec.travel_mono (t := t) (u := u) h img
  rw [hgone] at mono
  refine ⟨by omega, by omega, by omega, by omega, by omega, fun later => ?_, by omega, by omega, by omega, by omega, fun later => ?_⟩
  all_goals
    have := mono later
    omega

/-! ### The cycle layout (R26 to R29) -/

theorem Image.mem_layoutEvents {img : Image} {e : LayoutEvent} :
    e ∈ img.layoutEvents ↔ ∃ i, i < img.slots ∧ e ∈ img.slotEvents i := by
  simp [Image.layoutEvents]

theorem Image.mem_slotEvents {img : Image} {i : Nat} {e : LayoutEvent} {r : Row} (hr : img.row (img.runStart + i) = r) {z : Int}
    (hz : i * (11520 / img.slots : Int) = z) :
    e ∈ img.slotEvents i ↔
      (e = ⟨z - 1440, .sparkOpen, i⟩ ∨ e = ⟨z + 720, .sparkClose, i⟩ ∨
        e = ⟨z + r.knockStart, .knockOpen, i⟩ ∨ e = ⟨z + r.knockStart + r.knockLen, .knockClose, i⟩ ∨
        (r.guardLen ≠ 0 ∧ (e = ⟨z + r.guardStart, .guardOpen, i⟩ ∨ e = ⟨z + r.guardStart + r.guardLen, .guardClose, i⟩)) ∨
        e = ⟨z, .slotBoundary, i⟩ ∨ e = ⟨img.boundary i, .segment, i⟩) := by
  have tdc : (img.tdc i : Int) = z := by simp [← hz, Image.tdc, Image.slotLen]
  unfold Image.slotEvents
  dsimp only
  rw [tdc, show img.row (img.slotRow i) = r from hr]
  by_cases none : r.guardLen = 0
  · simp only [none, if_true, List.append_nil, List.mem_cons, List.not_mem_nil, or_false, ne_eq, not_true, false_and, false_or]
    tauto
  · simp only [none, if_false, List.cons_append, List.nil_append, List.mem_cons, List.not_mem_nil, or_false, ne_eq,
      not_false_eq_true, true_and]
    tauto

theorem Image.slot_of_mem {img : Image} {e : LayoutEvent} (h : e ∈ img.layoutEvents) : e.slot < img.slots := by
  obtain ⟨i, hi, he⟩ := Image.mem_layoutEvents.mp h
  have slot : e.slot = i := by
    obtain rfl | rfl | rfl | rfl | ⟨_, rfl | rfl⟩ | rfl | rfl := (Image.mem_slotEvents rfl rfl).mp he <;> rfl
  exact slot ▸ hi

theorem insertEvent_length (e : LayoutEvent) (l : List LayoutEvent) : (insertEvent e l).length = l.length + 1 := by
  induction l with
  | nil => rfl
  | cons x l ih =>
    unfold insertEvent
    split
    · rfl
    · rw [List.length_cons, ih, List.length_cons]

theorem sortedEvents_length (l : List LayoutEvent) : (l.foldr insertEvent []).length = l.length := by
  induction l with
  | nil => rfl
  | cons x l ih => rw [List.foldr_cons, insertEvent_length, ih, List.length_cons]

theorem insertEvent_sorted {e : LayoutEvent} {l : List LayoutEvent} (h : l.Pairwise fun x y => x.key ≤ y.key) :
    (insertEvent e l).Pairwise fun x y => x.key ≤ y.key := by
  induction l with
  | nil => exact List.pairwise_singleton _ _
  | cons x l ih =>
    obtain ⟨hx, hl⟩ := List.pairwise_cons.mp h
    unfold insertEvent
    split
    · next le =>
      refine List.pairwise_cons.mpr ⟨fun y hy => ?_, h⟩
      obtain rfl | hy := List.mem_cons.mp hy
      · exact le
      · exact le.trans (hx y hy)
    · next gt =>
      refine List.pairwise_cons.mpr ⟨fun y hy => ?_, ih hl⟩
      obtain rfl | hy := mem_insertEvent.mp hy
      · exact (Nat.lt_of_not_le gt).le
      · exact hx y hy

theorem sortedEvents_sorted (l : List LayoutEvent) : (l.foldr insertEvent []).Pairwise fun x y => x.key ≤ y.key := by
  induction l with
  | nil => exact .nil
  | cons x l ih => exact insertEvent_sorted ih

/-- R29: the key orders events of the six slots by angle, then by kind, then by slot. -/
theorem LayoutEvent.order_of_key {e f : LayoutEvent} (h : e.key ≤ f.key) (he : e.slot < 6) (hf : f.slot < 6) :
    e.cycleAngle < f.cycleAngle ∨ (e.cycleAngle = f.cycleAngle ∧
      (e.kind.rank < f.kind.rank ∨ (e.kind.rank = f.kind.rank ∧ e.slot ≤ f.slot))) := by
  have rank : ∀ k : EventKind, k.rank < 4 := by intro k; cases k <;> decide
  have sub : ∀ k : EventKind, k.sub < 4 := by intro k; cases k <;> decide
  have re := rank e.kind
  have rf := rank f.kind
  have se := sub e.kind
  have sf := sub f.kind
  unfold LayoutEvent.key at h
  omega

theorem Image.eventsBetween_ordered {img : Image} (six : img.slots ≤ 6) (lo hi : Nat) :
    (img.eventsBetween lo hi).Pairwise fun e f =>
      e.cycleAngle < f.cycleAngle ∨ (e.cycleAngle = f.cycleAngle ∧
        (e.kind.rank < f.kind.rank ∨ (e.kind.rank = f.kind.rank ∧ e.slot ≤ f.slot))) := by
  refine List.Pairwise.imp_of_mem (fun {e f} he hf h => LayoutEvent.order_of_key h ?_ ?_) (sortedEvents_sorted _)
  · exact Nat.lt_of_lt_of_le (Image.slot_of_mem (Image.mem_eventsBetween.mp he).1) six
  · exact Nat.lt_of_lt_of_le (Image.slot_of_mem (Image.mem_eventsBetween.mp hf).1) six

theorem LayoutEvent.cycleAngle_eq (e : LayoutEvent) : (e.cycleAngle : Int) = e.angle % 11520 ∧ e.cycleAngle < 11520 := by
  unfold LayoutEvent.cycleAngle
  simp only [Config.cycleUnits]
  omega

theorem LayoutEvent.instCycle_eq (e : LayoutEvent) (c : Half) :
    (e.angle < 0 → e.instCycle c = c + 1) ∧ (0 ≤ e.angle → e.angle < 11520 → e.instCycle c = c) ∧
      (11520 ≤ e.angle → e.instCycle c = c - 1) := by
  unfold LayoutEvent.instCycle
  simp only [Config.cycleUnits, Nat.cast_ofNat]
  refine ⟨fun h => if_pos h, fun h k => ?_, fun h => ?_⟩
  · rw [if_neg (by omega), if_neg (by omega)]
  · rw [if_neg (by omega), if_pos h]

/-- R58: the segment boundary is the tooth position at or before TDC + segment offset. -/
theorem Image.boundary_spec {img : Image} (i : Nat) (h : 0 < img.toothAngle) :
    let x : Int := i * (11520 / img.slots) + img.segOffset
    img.boundary i ≤ x ∧ x < img.boundary i + img.toothAngle ∧ (img.boundary i - img.refOffset) % (img.toothAngle : Int) = 0 := by
  intro x
  have hx : img.boundary i = x - (x - img.refOffset) % (img.toothAngle : Int) := by
    simp [Image.boundary, Image.tdc, Image.slotLen, x]
  have positive : (0 : Int) < img.toothAngle := by exact_mod_cast h
  have low := Int.emod_nonneg (x - img.refOffset) (ne_of_gt positive)
  have high := Int.emod_lt_of_pos (x - img.refOffset) positive
  rw [hx]
  refine ⟨by omega, by omega, ?_⟩
  rw [show x - (x - ↑img.refOffset) % ↑img.toothAngle - ↑img.refOffset = (x - img.refOffset) - (x - img.refOffset) % (img.toothAngle : Int)
    by omega]
  exact Int.emod_eq_zero_of_dvd (Int.dvd_self_sub_emod)

/-- Settles O19: the layout's members, their angles and cycles, and the order in which they are raised. -/
theorem layoutOrder : Obligations.LayoutOrder := by
  refine ⟨fun img e => ?_, fun img i h => Image.boundary_spec i h, fun e c => ?_, fun img lo hi e => Image.mem_eventsBetween,
    fun img lo hi => ?_, fun img lo hi six => Image.eventsBetween_ordered six lo hi, rfl, rfl, rfl, rfl, rfl, rfl, rfl, rfl⟩
  · exact Image.mem_layoutEvents.trans (exists_congr fun i => and_congr_right fun _ => Image.mem_slotEvents rfl rfl)
  · obtain ⟨angle, bound⟩ := e.cycleAngle_eq
    exact ⟨angle, bound, e.instCycle_eq c⟩
  · unfold Image.eventsBetween
    rw [sortedEvents_length]
    simp

/-! ### The raising of layout events (R17, R32, R33, R41, R54, R90, R91) -/

theorem exec_angleReached_synced (h : s.running = true) (hs : s.adec.sync = .fullSync) (t : Stamp) :
    exec (.angleReached t) s = .next ((s.setTimebase t).reachAngle t (s.adec.cycleAngle s.cfg.active t)) := by
  show execAngleReached t s = _
  rw [execAngleReached, onEvent_running h]
  exact congrArg _ (if_pos hs)

theorem exec_angleReached_unsynced (h : s.running = true) (hs : s.adec.sync ≠ .fullSync) (t : Stamp) :
    exec (.angleReached t) s = .next { s with timebase := t } := by
  show execAngleReached t s = _
  rw [execAngleReached, onEvent_running h]
  exact congrArg _ (if_neg hs)

theorem exec_angleReached_due (h : s.running = true) (hs : s.adec.sync = .fullSync) {t : Stamp}
    (due : s.adec.nextAngle ≤ s.adec.cycleAngle s.cfg.active t) :
    exec (.angleReached t) s = .next
      ((s.cfg.active.eventsBetween s.adec.nextAngle (s.adec.cycleAngle s.cfg.active t)).foldl (State.raise t s.adec.cycle)
        { s with timebase := t, adec := { s.adec with nextAngle := s.adec.cycleAngle s.cfg.active t + 1 } }) := by
  rw [exec_angleReached_synced h hs]
  unfold State.reachAngle
  exact congrArg _ (if_pos due)

theorem exec_angleReached_passed (h : s.running = true) (hs : s.adec.sync = .fullSync) {t : Stamp}
    (passed : s.adec.cycleAngle s.cfg.active t < s.adec.nextAngle) :
    exec (.angleReached t) s = .next { s with timebase := t } := by
  rw [exec_angleReached_synced h hs]
  unfold State.reachAngle
  exact congrArg _ (if_neg (Nat.not_le.mpr passed))

/-- The entry that a part is written into, as the claims name it. -/
theorem Cyt.write_eq (y : Cyt) (slot : Nat) (cycle : Half) (f : SlotInst → SlotInst) :
    y.write slot cycle f =
      { y with pendingList := y.pendingList.map fun i => if i.slot = slot ∧ i.cycle = cycle then f i else i } := by
  unfold Cyt.write SlotInst.named
  simp only [Bool.and_eq_true, decide_eq_true_eq]

/-- R32, R54: the slot boundary advances the cursor and, at a tracked slot, writes the snapshot. -/
theorem State.slotBoundary_eq (s : State) (i : Nat) (c : Half) :
    s.slotBoundary i c =
      { s with
        smap := s.smap.advance s.cfg.active
        cyt := if s.smap.marked i then
            s.cyt.write i c fun y => { y with snapshot := some (s.ops.snapshot (s.cfg.active.row (s.cfg.active.slotRow i)).cyl) }
          else s.cyt } := by
  unfold State.slotBoundary
  dsimp only
  split <;> rfl

/-- R33: while a slot's mark is clear its window events but the spark window opening do nothing. -/
theorem State.raise_untracked {i : Nat} (h : vget false s.smap.marks i = false) (t : Stamp) (c : Half) (z : Int) {k : EventKind}
    (hk : k = .sparkClose ∨ k = .knockOpen ∨ k = .knockClose ∨ k = .guardOpen ∨ k = .guardClose) :
    State.raise t c s ⟨z, k, i⟩ = s := by
  have clear : ¬ s.smap.marked i = true := by rw [Smap.marked, h]; decide
  obtain rfl | rfl | rfl | rfl | rfl := hk <;> exact if_neg clear

theorem State.noticeOpen_idle (h : NoRawCapture s) (t : Stamp) (σ : Sensor) (c : Cyl) (n : Half) (g : Gain) :
    s.noticeOpen t σ c n g = s := by
  unfold State.noticeOpen
  rw [Cap.fillingAs_raw h]

/-- Settles O18: the command with and without events due, the slot boundary, and the window openings. -/
theorem angleReached : Obligations.AngleReached := by
  refine ⟨fun t s h => ?_, fun t c s z i => ?_⟩
  · intro img x
    refine ⟨fun hs => exec_angleReached_unsynced h hs t, fun hs => exec_angleReached_passed h hs, fun hs due none => ?_,
      fun hs due => exec_angleReached_due h hs due, fun z i r hs due one low high cursor => ?_⟩
    · rw [exec_angleReached_due h hs due, none]
      rfl
    · have cycle := ((⟨z, .slotBoundary, i⟩ : LayoutEvent).instCycle_eq s.adec.cycle).2.1 low high
      let v : State := { s with timebase := t, adec := { s.adec with nextAngle := x + 1 } }
      have raised : State.raise t s.adec.cycle v ⟨z, .slotBoundary, i⟩ = v.slotBoundary i s.adec.cycle :=
        congrArg (v.slotBoundary i) cycle
      rw [exec_angleReached_due h hs due, one, List.foldl_cons, List.foldl_nil, raised, State.slotBoundary_eq]
      refine ⟨_, rfl, ?_, fun clear => if_neg ?_, fun mark => ?_⟩
      · show { v with smap := v.smap.advance img, cyt := _ } = _
        unfold Smap.advance
        rw [show v.smap.cursor = some r from cursor]
        rfl
      · rw [Smap.marked, show vget false v.smap.marks i = false from clear]
        decide
      · rw [if_pos (show v.smap.marked i = true from mark), Cyt.write_eq]
        exact ⟨rfl, rfl⟩
  · intro img row r cycle g chain left
    refine ⟨rfl, fun clear k hk => State.raise_untracked clear t c z hk, fun mark idle => ?_, fun mark => ?_⟩
    · refine (if_pos mark).trans ?_
      unfold State.knockOpen
      exact State.noticeOpen_idle (by exact idle) _ _ _ _ _
    · exact if_pos mark

/-! ### Ignition sense (R42 to R44) -/

theorem exec_igsEdge_falling (h : s.running = true) (t : Stamp) (n : Cyl) :
    exec (.igsEdge t n .falling) s = .next ((s.setTimebase t).igsFall t n) := by
  show execIgsEdge t n .falling s = _
  rw [execIgsEdge, onEvent_running h]
  rfl

theorem State.igsFall_spark {n : Cyl} {r : SparkRecord} (h : s.igsu.get n = some r) (none : r.angle = none) (t : Stamp) :
    s.igsFall t n =
      { s with igsu := s.igsu.set n
                (some { r with angle := some (((s.adec.cycleAngle s.cfg.active t : Int) - r.tdc + 1440) % 11520 - 1440) }) } := by
  unfold State.igsFall SparkRecord.spark
  rw [h]
  dsimp only
  rw [none]
  rfl

theorem State.igsFall_ignored {n : Cyl}
    (h : s.igsu.get n = none ∨ ∃ (r : SparkRecord) (y : Int), s.igsu.get n = some r ∧ r.angle = some y) (t : Stamp) :
    s.igsFall t n = s := by
  unfold State.igsFall SparkRecord.spark
  obtain h | ⟨r, y, h, hy⟩ := h
  · rw [h]
  · rw [h]
    dsimp only
    rw [hy, ← h]
    show s.setIgsu (s.igsu.set n (s.igsu.get n)) = s
    rw [PerCyl.set_get]
    rfl

/-- R43: the close without a record, and the spark part that the close of a record writes before the KNA test. -/
theorem State.sparkClose_none {i : Nat} (h : s.igsu.get (s.cfg.active.row (s.cfg.active.slotRow i)).cyl = none) (t : Stamp) :
    s.sparkClose t i = s := by
  unfold State.sparkClose
  dsimp only
  rw [h]

theorem State.sparkClose_some {i : Nat} {r : SparkRecord} (h : s.igsu.get (s.cfg.active.row (s.cfg.active.slotRow i)).cyl = some r)
    (t : Stamp) :
    let c := (s.cfg.active.row (s.cfg.active.slotRow i)).cyl
    let fuelCut := ((s.cyt.find r.slot r.cycle).bind (·.snapshot)).any (·.fuelCut)
    s.sparkClose t i = State.tryKnock
      { s with
        igsu := s.igsu.set c none
        cyt := s.cyt.write r.slot r.cycle fun y => { y with spark := some (sparkPartOf (s.cfg.active.igsEnabled c) fuelCut r.angle) } }
      t r.slot r.cycle := by
  unfold State.sparkClose
  dsimp only
  rw [h]
  rfl

/-- Settles O20: the falling edge kept and ignored, the spark part by its cases, and the close of a tracked slot. -/
theorem sparkSense : Obligations.SparkSense := by
  refine ⟨fun t n s r h hr none => ?_, fun t n s h hr => ?_, fun x => ⟨rfl, rfl⟩, fun cut => rfl, fun angle => ⟨rfl, rfl⟩,
    fun t c s z i mark => ?_⟩
  · intro x
    rw [exec_igsEdge_falling h, State.igsFall_spark (s := s.setTimebase t) hr none]
    rfl
  · rw [exec_igsEdge_falling h, State.igsFall_ignored (s := s.setTimebase t) hr]
    rfl
  · intro img n
    have raised : State.raise t c s ⟨z, .sparkClose, i⟩ = s.sparkClose t i := if_pos mark
    rw [raised]
    refine ⟨fun hn => State.sparkClose_none hn t, fun r hr => ?_⟩
    intro named
    refine ⟨((s.cyt.find r.slot r.cycle).bind (·.snapshot)).any (·.fuelCut), fun x m hx hm => ?_, ?_⟩
    · rw [show s.cyt.find r.slot r.cycle = some x from hx, Option.bind_some, hm]
      rfl
    · rw [State.sparkClose_some (show s.igsu.get (s.cfg.active.row (s.cfg.active.slotRow i)).cyl = some r from hr) t]
      rfl

end Sys2Proof.Machine
end

section
/-! PROOFS. The operating state and the misfire assessor (chapters 3 and 4): O21 to O25. -/

namespace Sys2Proof.Machine

variable {s u : State}

/-! ### Requests of the command's own length (R184, R185) -/

/-- An accepted selection's request of the command's own length: what `serve` makes of the state, and its answer in the buffer. -/
theorem request_served {p : Port} (h : s.ready p) {n : Nat} {pl : List Byte} (hn : pl.length = n) (small : n ≤ 250)
    (serve : State → State × Response) (t : Stamp) :
    takeRequest t p (ofLength n pl serve) s = (serve (s.taken p t)).1.withResponse p (serve (s.taken p t)).2 := by
  rw [ofLength_exact hn small, takeRequest_ready h]

/-- A request of the command's own length that fails one of its tests. -/
theorem request_refused {p : Port} (h : s.ready p) {n : Nat} {pl : List Byte} (hn : pl.length = n) (small : n ≤ 250)
    {serve : State → State × Response} {t : Stamp} {c : ResultCode} (hs : serve (s.taken p t) = refuse c (s.taken p t)) :
    takeRequest t p (ofLength n pl serve) s = s.answered p t ⟨c, []⟩ := by
  rw [ofLength_exact hn small, takeRequest_refused h hs]

/-! ### The merged operating state (R49 to R51) -/

theorem Ops.mem_held {o : Ops} {d : Declaration} : d ∈ o.held ↔ ∃ p : Port, o.decl.get p = some d := by
  have ports : (∃ p : Port, o.decl.get p = some d) ↔ o.decl.a = some d ∨ o.decl.b = some d ∨ o.decl.c = some d := by
    constructor
    · rintro ⟨p, h⟩
      cases p
      · exact .inl h
      · exact .inr (.inl h)
      · exact .inr (.inr h)
    · rintro (h | h | h)
      · exact ⟨.a, h⟩
      · exact ⟨.b, h⟩
      · exact ⟨.c, h⟩
  rw [ports, Ops.held, List.mem_filterMap]
  simp only [List.mem_cons, List.not_mem_nil, or_false, id_eq, exists_eq_right]
  simp only [eq_comm]

/-- R50: a bit of the merged mask is set exactly when a mask names it. -/
theorem getLsbD_foldl_or {w : Nat} (l : List (BitVec w)) (a : BitVec w) (i : Nat) :
    (l.foldl (· ||| ·) a).getLsbD i = true ↔ a.getLsbD i = true ∨ ∃ x ∈ l, x.getLsbD i = true := by
  induction l generalizing a with
  | nil => simp
  | cons x l ih => simp [ih, or_assoc]

theorem Ops.lineActive_iff (o : Ops) (img : Image) :
    o.lineActive img = true ↔ img.alsinEnable = 1 ∧ (o.alsin = true ↔ img.alsinActive = 1) := by
  rw [Ops.lineActive, Bool.and_eq_true, decide_eq_true_eq, decide_eq_true_eq, Bool.eq_iff_iff, decide_eq_true_eq]

theorem Ops.merge_antiLag (o : Ops) (img : Image) :
    (o.merge img).antiLag = true ↔ (img.alsinEnable = 1 ∧ (o.alsin = true ↔ img.alsinActive = 1)) ∨
      ∃ (p : Port) (d : Declaration), o.decl.get p = some d ∧ d.antiLag = true := by
  show (o.lineActive img || o.held.any (·.antiLag)) = true ↔ _
  rw [Bool.or_eq_true, Ops.lineActive_iff, List.any_eq_true]
  refine or_congr_right ⟨fun ⟨d, hd, flag⟩ => ?_, fun ⟨p, d, hd, flag⟩ => ⟨d, Ops.mem_held.mpr ⟨p, hd⟩, flag⟩⟩
  obtain ⟨p, hp⟩ := Ops.mem_held.mp hd
  exact ⟨p, d, hp, flag⟩

theorem Ops.merge_fuelCut (o : Ops) (img : Image) (i : Nat) :
    (o.merge img).fuelCut.getLsbD i = true ↔ ∃ (p : Port) (d : Declaration), o.decl.get p = some d ∧ d.mask.getLsbD i = true := by
  show ((o.held.map Declaration.mask).foldl (· ||| ·) 0).getLsbD i = true ↔ _
  rw [getLsbD_foldl_or]
  constructor
  · rintro (zero | ⟨x, hx, bit⟩)
    · simp at zero
    · obtain ⟨d, hd, rfl⟩ := List.mem_map.mp hx
      obtain ⟨p, hp⟩ := Ops.mem_held.mp hd
      exact ⟨p, d, hp, bit⟩
  · rintro ⟨p, d, hp, bit⟩
    exact .inr ⟨d.mask, List.mem_map_of_mem (Ops.mem_held.mpr ⟨p, hp⟩), bit⟩

/-- R51: load band and STALE by the declaration that is chosen. -/
theorem Ops.merge_chosen {o : Ops} (img : Image) {d : Declaration} (h : o.chosen = some d) :
    (o.merge img).band = d.band ∧ (o.merge img).stale = false := by
  unfold Ops.merge
  rw [h]
  exact ⟨rfl, rfl⟩

theorem Ops.merge_none {o : Ops} (img : Image) (h : o.chosen = none) :
    (o.merge img).band = o.band ∧ (o.merge img).stale = true := by
  unfold Ops.merge
  rw [h]
  exact ⟨rfl, rfl⟩

/-- Settles O21: the one state, and its merged fields by lines and declarations. -/
theorem mergedState : Obligations.MergedState := by
  intro t e s h img D
  let o : Ops := { s.ops with alsin := decide (e = .rising) }
  have rule : exec (.alsinEdge t e) s = .next { s with timebase := t, ops := o.merge img } := by
    show execAlsinEdge t e s = _
    rw [execAlsinEdge, onEvent_running h]
    rfl
  refine ⟨_, rule, rfl, ?_, fun c => o.merge_fuelCut img _, fun d ha => ?_, fun d ha hb => ?_, fun d ha hb hc => ?_,
    fun ha hb hc => ?_⟩
  · have line := o.merge_antiLag img
    rwa [show (o.alsin = true) = (e = .rising) from decide_eq_true_eq] at line
  · exact Ops.merge_chosen img (by show D.a.or _ = _; rw [ha]; rfl)
  · exact Ops.merge_chosen img (by show D.a.or (D.b.or _) = _; rw [ha, hb]; rfl)
  · exact Ops.merge_chosen img (by show D.a.or (D.b.or D.c) = _; rw [ha, hb, hc]; rfl)
  · exact Ops.merge_none (o := o) img (by show D.a.or (D.b.or D.c) = _; rw [ha, hb, hc]; rfl)

/-- Settles O22: the filled slot with its answer, and the two values out of range. -/
theorem declareState : Obligations.DeclareState := by
  intro t p f b m s ready
  refine ⟨fun hf hm => ⟨_, rfl, ?_⟩, fun bad => ?_⟩
  · have flag : decide (f.toNat = 1) = decide (f = 1) :=
      decide_eq_decide.mpr ⟨fun x => BitVec.eq_of_toNat_eq x, fun x => by rw [x]; rfl⟩
    have valid : ¬ (1 < f.toNat ∨ 63 < m.toNat) := by omega
    show execDeclareState t p [f, b, m] s = _
    rw [execDeclareState, request_served ready (n := 3) rfl (by decide), ← flag]
    unfold serveDeclareState
    rw [if_neg (by exact valid)]
    rfl
  · show execDeclareState t p [f, b, m] s = _
    rw [execDeclareState, request_refused ready (n := 3) rfl (by decide) (if_pos (by exact bad))]

/-- Settles O23: the declaration that has run out, and the two in which nothing lapses. -/
theorem declarationLapse : Obligations.DeclarationLapse := by
  intro t p s h
  have rule : exec (.declExpiry t p) s =
      .next (if (s.setTimebase t).declDue t p then (s.setTimebase t).lapse p else s.setTimebase t) := by
    show execDeclExpiry t p s = _
    rw [execDeclExpiry, onEvent_running h]
  rw [rule]
  have due := State.declDue_iff (s.setTimebase t) t p
  refine ⟨fun empty => ?_, fun d hd early => ?_, fun d hd late => ?_⟩
  · rw [if_neg fun x => ?_]
    · rfl
    · obtain ⟨d, hd, _⟩ := due.mp x
      rw [State.setTimebase_ops, empty] at hd
      exact nomatch hd
  · rw [if_neg fun x => ?_]
    · rfl
    · obtain ⟨e, he, late⟩ := due.mp x
      rw [State.setTimebase_ops, hd] at he
      obtain rfl := Option.some.inj he
      omega
  · rw [if_pos (due.mpr ⟨d, hd, late⟩)]
    rfl

/-! ### The misfire verdict (R64 to R71) -/

theorem le_foldl_max (l : List Nat) (a : Nat) : a ≤ l.foldl max a ∧ ∀ v ∈ l, v ≤ l.foldl max a := by
  induction l generalizing a with
  | nil => simp
  | cons x l ih =>
    obtain ⟨first, rest⟩ := ih (max a x)
    rw [List.foldl_cons]
    refine ⟨(le_max_left a x).trans first, fun v hv => ?_⟩
    obtain rfl | hv := List.mem_cons.mp hv
    · exact (le_max_right a v).trans first
    · exact rest v hv

theorem foldl_max_mem (l : List Nat) (a : Nat) : l.foldl max a = a ∨ l.foldl max a ∈ l := by
  induction l generalizing a with
  | nil => exact .inl rfl
  | cons x l ih =>
    rw [List.foldl_cons]
    obtain same | inside := ih (max a x)
    · rw [same]
      obtain h | h := max_choice a x
      · exact .inl h
      · rw [h]
        exact .inr List.mem_cons_self
    · exact .inr (List.mem_cons_of_mem _ inside)

/-- The largest value of a list that is not empty is one of its values. -/
theorem largest_mem {l : List Nat} (h : l ≠ []) : largest l ∈ l := by
  obtain zero | inside := foldl_max_mem l 0
  · obtain ⟨x, l, rfl⟩ := List.exists_cons_of_ne_nil h
    have small := (le_foldl_max (x :: l) 0).2 x List.mem_cons_self
    rw [zero] at small
    rw [largest, zero, ← Nat.le_zero.mp small]
    exact List.mem_cons_self
  · exact inside

/-- R68: the road index of a history, short and full. -/
theorem roadIndex_spec (l : List Nat) :
    (l.length < 8 → roadIndex l = 0) ∧
      (l.length = 8 → ∃ m ∈ l, (∀ v ∈ l, v ≤ m) ∧ roadIndex l = (l.sum - m) / 7) := by
  unfold roadIndex
  refine ⟨fun h => if_pos h, fun h => ⟨largest l, largest_mem ?_, (le_foldl_max l 0).2, if_neg (by omega)⟩⟩
  rintro rfl
  exact absurd h (by decide)

/-- R69: the base limit with a load band, and under STALE. -/
theorem Image.baseLimit_spec (img : Image) (band : Nat) (snap : Snapshot) :
    let table := img.misfireTable snap.set
    (snap.stale = false → img.baseLimit band snap = vget 0 table (4 * band + snap.band)) ∧
      (snap.stale = true → (∀ l, l < 4 → vget 0 table (4 * band + l) ≤ img.baseLimit band snap) ∧
        ∃ l, l < 4 ∧ img.baseLimit band snap = vget 0 table (4 * band + l)) := by
  intro table
  let load : Nat → Nat := fun l => vget 0 table (4 * band + l)
  have value : img.baseLimit band snap =
      if snap.stale then max (max (load 0) (load 1)) (max (load 2) (load 3)) else load snap.band := rfl
  rw [value]
  refine ⟨fun h => if_neg (by rw [h]; decide), fun h => ?_⟩
  rw [if_pos h]
  refine ⟨fun l hl => ?_, ?_⟩
  · show load l ≤ _
    obtain rfl | rfl | rfl | rfl : l = 0 ∨ l = 1 ∨ l = 2 ∨ l = 3 := by omega
    all_goals omega
  · show ∃ l, l < 4 ∧ _ = load l
    have : max (max (load 0) (load 1)) (max (load 2) (load 3)) = load 0 ∨ max (max (load 0) (load 1)) (max (load 2) (load 3)) = load 1 ∨
        max (max (load 0) (load 1)) (max (load 2) (load 3)) = load 2 ∨ max (max (load 0) (load 1)) (max (load 2) (load 3)) = load 3 := by
      omega
    obtain e | e | e | e := this
    · exact ⟨0, by decide, e⟩
    · exact ⟨1, by decide, e⟩
    · exact ⟨2, by decide, e⟩
    · exact ⟨3, by decide, e⟩

/-- The verdict where all three segment times are known. -/
theorem judgeMisfire_times {x : MisfireInputs} {a k b : Nat} (ha : x.tPrev = some a) (hk : x.tk = some k) (hb : x.tNext = some b)
    (img : Image) :
    judgeMisfire img x =
      if x.rpm < img.minSpeed then ⟨.notAssessed, some .lowSpeed, none⟩
      else if 10000 < x.rpm then ⟨.notAssessed, some .overspeed, none⟩
      else match x.cut with
        | some c => ⟨.cut, some (reasonOfCut c), none⟩
        | none => match excess2 x.cutPrev x.cutNext a k b with
          | none => ⟨.neighborCut, none, none⟩
          | some e2 => judgeIndex img x (decelIndex e2 k) := by
  unfold judgeMisfire
  rw [ha, hk, hb]
  rfl

theorem judgeMisfire_warmup {x : MisfireInputs} (h : x.tPrev = none ∨ x.tk = none ∨ x.tNext = none) (img : Image) :
    judgeMisfire img x = ⟨.notAssessed, some .warmup, none⟩ := by
  unfold judgeMisfire
  split
  · next a k b ha hk hb => simp [ha, hk, hb] at h
  · rfl

/-- Settles O24: the tests in their order, and D, W, the limit and the base where D is computed. -/
theorem misfireVerdicts : Obligations.MisfireVerdicts := by
  intro img x
  refine ⟨fun h => judgeMisfire_warmup h img, fun a k b ha hk hb => ?_⟩
  rw [judgeMisfire_times ha hk hb]
  refine ⟨fun slow => if_pos slow, fun fine fast => ?_, fun fine notFast => ?_⟩
  · rw [if_neg (Nat.not_lt.mpr fine), if_pos fast]
  · rw [if_neg (Nat.not_lt.mpr fine), if_neg (Nat.not_lt.mpr notFast)]
    refine ⟨fun cut => by rw [cut]; rfl, fun cut => by rw [cut]; rfl, fun cut left right => by rw [cut, left, right]; rfl,
      fun e2 cut he2 => ?_⟩
    have excess : excess2 x.cutPrev x.cutNext a k b = some e2 := by
      obtain ⟨l, r, rfl⟩ | ⟨l, r, rfl⟩ | ⟨l, r, rfl⟩ := he2 <;> rw [l, r] <;> rfl
    rw [cut, excess]
    refine ⟨decelIndex e2 k, img.baseLimit x.band x.snap, roadIndex x.history, rfl, ?_⟩
    obtain ⟨fresh, stale⟩ := img.baseLimit_spec x.band x.snap
    obtain ⟨short, full⟩ := roadIndex_spec x.history
    unfold decelIndex
    exact ⟨by omega, by omega, by omega, by omega, by omega, short, full, fun h _ => fresh h, stale⟩

/-! ### The decision (R60 to R63, R72 to R77) -/

theorem MisfireCounts.after_eq (c : MisfireCounts) (img : Image) (v : MisfireVerdict) :
    c.after img v =
      if v = .misfire then
        ⟨min 255 (c.cons + 1), c.persist || decide (img.consLimit ≤ min 255 (c.cons + 1)), min 1000 (c.block + 1)⟩
      else if v = .noMisfire then ⟨0, false, c.block⟩ else c := by
  cases v <;> rfl

theorem historyAfter_eq (l : List Nat) (j : MisfireJudged) :
    historyAfter l j = match j.index with
      | none => l
      | some x => (if l.length < 8 then l else l.tail) ++ [x.d.natAbs] := by
  unfold historyAfter appendHistory
  cases j.index with
  | none => rfl
  | some x =>
    dsimp only
    rw [List.drop_one]
    split <;> rfl

/-- R72: what MFA writes for a verdict, `ports` being the ports with the records it emits. -/
def State.misfireWritten (s : State) (i : SlotInst) (j : MisfireJudged) (ports : PerPort PortState) : State :=
  let counts := (s.mfa.counts.get i.cyl).after s.cfg.active j.verdict
  { s with
    mfa := { s.mfa with counts := s.mfa.counts.set i.cyl counts, history := historyAfter s.mfa.history j,
                        last := some ⟨i.slot, i.cycle, (i.spark.bind (·.cut)).isSome⟩ }
    cyt := s.cyt.write i.slot i.cycle fun y => { y with misfire := some ⟨j, counts.cons, counts.block⟩ }
    ports := ports }

/-- R72: a verdict other than MISFIRE emits no record. -/
theorem State.applyMisfire_quiet {i : SlotInst} {j : MisfireJudged} (h : j.verdict ≠ .misfire) (t : Stamp) :
    s.applyMisfire t i j = (s.misfireWritten i j s.ports).tryComplete t i.slot i.cycle := by
  have silent : (s.mfa.counts.get i.cyl).persists s.cfg.active j.verdict = false := by
    simp [MisfireCounts.persists, h]
  unfold State.applyMisfire
  dsimp only
  rw [silent, if_neg (by decide)]
  split
  · next hv _ => exact absurd hv h
  · rfl

/-- R72, R74: a MISFIRE emits its record and, at the limit, the PERSIST record behind it. -/
theorem State.applyMisfire_misfire {i : SlotInst} {j : MisfireJudged} (h : j.verdict = .misfire) {x : MisfireIndex}
    (hx : j.index = some x) (t : Stamp) :
    let c := s.mfa.counts.get i.cyl
    let rec1 : Record :=
      ⟨some i.cyl, i.cycle, t, .misfire x.d x.limit (min 255 (c.cons + 1)) i.snap.set i.snap.stale⟩
    let rec2 : Record := ⟨some i.cyl, i.cycle, t, .persist (min 255 (c.cons + 1)) s.cfg.active.consLimit⟩
    s.applyMisfire t i j = (s.misfireWritten i j (if c.persists s.cfg.active j.verdict
      then s.ports.map fun q => offered rec2 (offered rec1 q) else s.ports.map (offered rec1))).tryComplete t i.slot i.cycle := by
  intro c rec1 rec2
  unfold State.applyMisfire
  dsimp only
  rw [h, hx]
  dsimp only
  have two : (s.ports.map (·.offer rec1)).map (·.offer rec2) = s.ports.map fun q => offered rec2 (offered rec1 q) := by
    rw [PerPort.map_map]
    simp only [PortState.offer_eq]
  have one : s.ports.map (·.offer rec1) = s.ports.map (offered rec1) := by
    simp only [PortState.offer_eq]
  rw [← two, ← one]
  split <;> simp only [State.misfireWritten, h] <;> rfl

theorem State.misfireWritten_eq (s : State) (i : SlotInst) (j : MisfireJudged) (ports : PerPort PortState) :
    let c := s.mfa.counts.get i.cyl
    let counts : MisfireCounts :=
      if j.verdict = .misfire then
        ⟨min 255 (c.cons + 1), c.persist || decide (s.cfg.active.consLimit ≤ min 255 (c.cons + 1)), min 1000 (c.block + 1)⟩
      else if j.verdict = .noMisfire then ⟨0, false, c.block⟩ else c
    s.misfireWritten i j ports =
      { s with
        mfa := { s.mfa with
                 counts := s.mfa.counts.set i.cyl counts
                 history := match j.index with
                   | none => s.mfa.history
                   | some x => (if s.mfa.history.length < 8 then s.mfa.history else s.mfa.history.tail) ++ [x.d.natAbs]
                 last := some ⟨i.slot, i.cycle, (i.spark.bind (·.cut)).isSome⟩ }
        cyt := { s.cyt with
                 pendingList := s.cyt.pendingList.map fun y =>
                   if y.slot = i.slot ∧ y.cycle = i.cycle then { y with misfire := some ⟨j, counts.cons, counts.block⟩ }
                   else y }
        ports := ports } := by
  intro c counts
  unfold State.misfireWritten
  dsimp only
  rw [Cyt.write_eq, MisfireCounts.after_eq, historyAfter_eq]

/-- A decision leaves the segment list. -/
theorem State.applyMisfire_segments (s : State) (t : Stamp) (i : SlotInst) (j : MisfireJudged)
    (h : j.verdict = .misfire → j.index.isSome) : (s.applyMisfire t i j).mfa.segments = s.mfa.segments := by
  by_cases hv : j.verdict = .misfire
  · obtain ⟨x, hx⟩ := Option.isSome_iff_exists.mp (h hv)
    rw [State.applyMisfire_misfire hv hx, (State.tryComplete_frame _ t _ _).mfa]
    rfl
  · rw [State.applyMisfire_quiet hv, (State.tryComplete_frame _ t _ _).mfa]
    rfl

/-- A verdict is formed without an index, and then is not MISFIRE, or from a D. -/
theorem judgeMisfire_cases (img : Image) (x : MisfireInputs) :
    (judgeMisfire img x).verdict ≠ .misfire ∨ ∃ d, judgeMisfire img x = judgeIndex img x d := by
  unfold judgeMisfire
  split
  · split
    · exact .inl (by simp [plainMisfire])
    · split
      · exact .inl (by simp [plainMisfire])
      · split
        · exact .inl (by simp [plainMisfire])
        · split
          · exact .inl (by simp [plainMisfire])
          · exact .inr ⟨_, rfl⟩
  · exact .inl (by simp [plainMisfire])

theorem judgeMisfire_index {img : Image} {x : MisfireInputs} (h : (judgeMisfire img x).verdict = .misfire) :
    (judgeMisfire img x).index.isSome := by
  obtain no | ⟨d, hd⟩ := judgeMisfire_cases img x
  · exact absurd h no
  · rw [hd]
    rfl

/-- R60, step 1: the open record closes with its time. -/
theorem Segment.close_eq (t : Stamp) (g : Segment) :
    g.close t = if g.time = none then { g with time := some (t - g.start).toNat } else g := by
  unfold Segment.close
  cases h : g.time <;> simp [elapsed]

theorem State.raise_segment (t : Stamp) (c : Half) (s : State) (z : Int) (j : Nat) :
    State.raise t c s ⟨z, .segment, j⟩ = s.segmentBoundary t j ((⟨z, .segment, j⟩ : LayoutEvent).instCycle c) := rfl

/-- R61: no decision without the pending entry, or when it has its misfire part. -/
theorem State.decideMisfire_none {t : Stamp} {j : Nat} {c : Half}
    (h : ∀ i, s.cyt.find (decidedInst s.cfg.active.slots j c).1 (decidedInst s.cfg.active.slots j c).2 = some i →
      i.misfire.isSome = true) : s.decideMisfire t j c = s := by
  unfold State.decideMisfire
  dsimp only
  split
  · rfl
  · next i hi => exact if_pos (h i hi)

theorem State.decideMisfire_some {t : Stamp} {j : Nat} {c : Half} {i : SlotInst}
    (h : s.cyt.find (decidedInst s.cfg.active.slots j c).1 (decidedInst s.cfg.active.slots j c).2 = some i)
    (undecided : i.misfire = none) :
    s.decideMisfire t j c = s.applyMisfire t i (judgeMisfire s.cfg.active (s.misfireInputs i)) := by
  unfold State.decideMisfire
  dsimp only
  rw [h]
  exact if_neg (by rw [undecided]; decide)

theorem leftCut_iff (last : Option LastDecided) (name : Nat × Half) :
    leftCut last name = true ↔ last = some ⟨name.1, name.2, true⟩ := by
  unfold leftCut
  cases last with
  | none => simp
  | some l =>
    obtain ⟨slot, cycle, cut⟩ := l
    simp [and_assoc]

theorem rightCut_iff (y : Cyt) (name : Nat × Half) :
    rightCut y name = true ↔ ∃ (i : SlotInst) (p : SparkPart), p.cut.isSome = true ∧ i.spark = some p ∧
      y.find name.1 name.2 = some i := by
  unfold rightCut
  cases h : y.find name.1 name.2 with
  | none => simp
  | some i => cases hp : i.spark <;> simp [hp]

/-- Settles O25: the decision with its records and counts, the segment boundary, and the inputs. -/
theorem misfireDecision : Obligations.MisfireDecision := by
  refine ⟨fun t s i j index => ?_, fun t c s z j => ?_, fun s i => ?_⟩
  · intro c limit cons persists counts history rec1 rec2
    have hp : c.persists s.cfg.active j.verdict = persists := rfl
    by_cases hv : j.verdict = .misfire
    · obtain ⟨x, hx⟩ := Option.isSome_iff_exists.mp (index hv)
      refine ⟨_, fun no => absurd hv no, fun y _ hy => ?_, (State.applyMisfire_misfire hv hx t).trans
        (congrArg (State.tryComplete · t i.slot i.cycle) (s.misfireWritten_eq i j _))⟩
      obtain rfl := Option.some.inj (hx.symm.trans hy)
      rw [hp]
      exact ⟨fun no => if_neg (by rw [no]; decide), fun yes => if_pos yes⟩
    · exact ⟨s.ports, fun _ => rfl, fun _ yes => absurd yes hv, (State.applyMisfire_quiet hv t).trans
        (congrArg (State.tryComplete · t i.slot i.cycle) (s.misfireWritten_eq i j _))⟩
  · intro n cycle name closed opened v found
    have closes : s.mfa.segments.map (·.close t) = closed := List.map_congr_left fun g _ => g.close_eq t
    have opens : openSegment closed j cycle t = opened := by
      unfold openSegment closedSegments
      rw [List.drop_one]
    have rule : State.raise t c s ⟨z, .segment, j⟩ =
        (v.decideMisfire t j cycle).modMfa fun m => { m with segments := openSegment m.segments j cycle t } := by
      have first : (s.modMfa fun m => { m with segments := m.segments.map (·.close t) }) = v := by
        show s.setMfa { s.mfa with segments := s.mfa.segments.map (·.close t) } = v
        rw [closes]
        rfl
      rw [State.raise_segment]
      unfold State.segmentBoundary
      rw [first]
    rw [rule]
    refine ⟨fun idle => ?_, fun i hi undecided => ?_⟩
    · rw [State.decideMisfire_none (s := v) fun i hi => ?_]
      · rw [← opens]
        rfl
      · obtain none | ⟨k, hk, decided⟩ := idle
        · exact absurd (hi.symm.trans none) (by simp)
        · obtain rfl := Option.some.inj (hi.symm.trans hk)
          exact decided
    · refine ⟨_, rfl, ?_⟩
      rw [State.decideMisfire_some (s := v) hi undecided]
      have kept := v.applyMisfire_segments t i _ (judgeMisfire_index (img := s.cfg.active) (x := v.misfireInputs i))
      rw [show v.mfa.segments = closed from rfl] at kept
      rw [← opens, ← kept]
      rfl
  · intro n before after time x
    exact ⟨rfl, rfl, rfl, rfl, fun m hm => by show i.snapshot.getD _ = m; rw [hm]; rfl, rfl, rfl, rfl, leftCut_iff _ _,
      rightCut_iff _ _⟩

end Sys2Proof.Machine
end

section
/-! PROOFS. The knock assessor, the window results, auto-ranging and the completion (chapters 5 to 7): O28 to O31, O33. -/

namespace Sys2Proof.Machine

variable {s u : State}

/-! ### Auto-ranging (R99, R100) -/

theorem emit_offered (s : State) (r : Record) : s.emit r = { s with ports := s.ports.map (offered r) } := by
  unfold State.emit
  simp only [PortState.offer_eq]
  rfl

theorem State.emitFor_eq (s : State) (t : Stamp) (c : Cyl) (n : Half) (body : Option RecordBody) :
    s.emitFor t c n body =
      { s with ports := match body with
                | none => s.ports
                | some b => s.ports.map (offered ⟨some c, n, t, b⟩) } := by
  cases body with
  | none => rfl
  | some b => exact emit_offered s _

theorem State.autoRange_off {k : KnockIntegrator}
    (h : (s.cfg.active.row k.row).autoRange = false ∨ (s.kfe.rowGain k.row).gain ≠ k.gain) (t : Stamp) (σ : Sensor) :
    s.autoRange t σ k = s := by
  refine if_neg ?_
  rintro ⟨on, same⟩
  obtain off | other := h
  · exact absurd (on.symm.trans off) (by decide)
  · exact other same

/-- R99: the row's new gain and count, and the GAIN record of a step. -/
theorem State.autoRange_on {k : KnockIntegrator} (on : (s.cfg.active.row k.row).autoRange = true)
    (same : (s.kfe.rowGain k.row).gain = k.gain) (t : Stamp) (σ : Sensor) {d : RowGain × Option GainCause}
    (hd : autoRangeStep (s.kfe.rowGain k.row) k.result = d) :
    s.autoRange t σ k =
      { s with
        kfe := { s.kfe with rows := vset s.kfe.rows k.row d.1 }
        ports := match d.2 with
          | none => s.ports
          | some cause => s.ports.map (offered ⟨some k.cyl, k.cycle, t, .gain σ k.row (s.kfe.rowGain k.row).gain d.1.gain cause⟩) } := by
  unfold State.autoRange
  dsimp only
  rw [if_pos ⟨on, same⟩, hd, State.emitFor_eq]
  cases d.2 <;> rfl

/-- The auto-range step writes the row's gain and the ports alone. -/
theorem State.autoRange_eq (s : State) (t : Stamp) (σ : Sensor) (k : KnockIntegrator) :
    ∃ rows ports, s.autoRange t σ k = { s with kfe := { s.kfe with rows := rows }, ports := ports } := by
  by_cases on : (s.cfg.active.row k.row).autoRange = true ∧ (s.kfe.rowGain k.row).gain = k.gain
  · exact ⟨_, _, State.autoRange_on on.1 on.2 t σ rfl⟩
  · exact ⟨s.kfe.rows, s.ports, if_neg on⟩

/-- R93: a window of 4 samples or more has its level. -/
theorem KnockIntegrator.result_level {k : KnockIntegrator} (h : 4 ≤ k.n) : k.result.i = some (min 65535 (2 * k.sum / k.n)) :=
  if_neg (Nat.not_lt.mpr h)

theorem KnockIntegrator.result_short {k : KnockIntegrator} (h : k.n < 4) : k.result.i = none := if_pos h

theorem autoRangeStep_clipped {r : RowGain} {k : KnockIntegrator} (h : k.clip = true) :
    autoRangeStep r k.result = if r.gain = .g1 then (⟨r.gain, 0⟩, none) else (⟨r.gain.down, 0⟩, some .clip) := if_pos h

theorem autoRangeStep_short {r : RowGain} {k : KnockIntegrator} (h : k.clip = false) (short : k.n < 4) :
    autoRangeStep r k.result = (r, none) := by
  unfold autoRangeStep
  rw [if_neg (show ¬ k.result.clipped = true from fun clip => absurd (h.symm.trans clip) (by decide)), KnockIntegrator.result_short short]

theorem autoRangeStep_level {r : RowGain} {k : KnockIntegrator} (h : k.clip = false) (long : 4 ≤ k.n) :
    autoRangeStep r k.result =
      if 1024 ≤ min 65535 (2 * k.sum / k.n) then (⟨r.gain, 0⟩, none)
      else if r.lowRun + 1 < 16 then (⟨r.gain, r.lowRun + 1⟩, none)
      else if r.gain = .g32 then (⟨r.gain, 0⟩, none)
      else (⟨r.gain.up, 0⟩, some .low) := by
  unfold autoRangeStep
  rw [if_neg (show ¬ k.result.clipped = true from fun clip => absurd (h.symm.trans clip) (by decide)), KnockIntegrator.result_level long]

/-- Settles O29: the step by its branches. -/
theorem autoRange : Obligations.AutoRange := by
  intro t σ s k _ img g low i left stepped
  refine ⟨fun h => State.autoRange_off h t σ, fun on same => ?_⟩
  have step := fun {d} => State.autoRange_on (d := d) on same t σ
  refine ⟨fun clip high => ⟨g.down, g.down_value high, ?_⟩, fun clip low => ?_, fun clip short => ?_, fun clip long quiet few => ?_,
    fun clip long quiet many high => ⟨g.up, g.up_value high, ?_⟩, fun clip long quiet many top => ?_, fun clip long loud => ?_⟩
  · exact step ((autoRangeStep_clipped clip).trans (if_neg high))
  · exact step ((autoRangeStep_clipped clip).trans (if_pos low))
  · exact step (autoRangeStep_short clip short)
  · exact step ((autoRangeStep_level clip long).trans ((if_neg (Nat.not_le.mpr quiet)).trans (if_pos few)))
  · exact step ((autoRangeStep_level clip long).trans
      ((if_neg (Nat.not_le.mpr quiet)).trans ((if_neg (Nat.not_lt.mpr many)).trans (if_neg high))))
  · exact step ((autoRangeStep_level clip long).trans
      ((if_neg (Nat.not_le.mpr quiet)).trans ((if_neg (Nat.not_lt.mpr many)).trans (if_pos top))))
  · exact step ((autoRangeStep_level clip long).trans (if_pos loud))

/-! ### The window results (R93 to R95) -/

/-- R93: normalising to gain 32 is exact, and holds its bound. -/
theorem normalised_spec (sum n : Nat) (g : Gain) :
    normalised (integrated sum n) g * g.value = min 65535 (2 * sum / n) * 32 ∧ normalised (integrated sum n) g ≤ 2097120 := by
  unfold normalised integrated
  have small : 32 / g.value ≤ 32 := Nat.div_le_self _ _
  refine ⟨by rw [Nat.mul_assoc, g.value_mul_quot], ?_⟩
  calc min 65535 (2 * sum / n) * (32 / g.value) ≤ 65535 * 32 := Nat.mul_le_mul (Nat.min_le_left _ _) small
    _ ≤ 2097120 := by decide

/-- R94: the guard result by its tests. -/
theorem GuardIntegrator.result_eq (q : GuardIntegrator) :
    q.result =
      if q.void then ⟨.void, none, q.n, q.gain⟩
      else if q.n < 4 then ⟨.short, none, q.n, q.gain⟩
      else ⟨.valid, some (normalised (integrated q.sum q.n) q.gain), q.n, q.gain⟩ := rfl

theorem State.noticeClose_idle (h : NoRawCapture s) (t : Stamp) (σ : Sensor) (a b : Bool) : s.noticeClose t σ a b = s := by
  unfold State.noticeClose
  rw [Cap.recordingOn_none (Cap.fillingAs_raw h)]

theorem State.knockClose_none {i : Nat}
    (h : (s.kfe.chain.get (s.cfg.active.row (s.cfg.active.slotRow i)).sensor).knock = none) (t : Stamp) : s.knockClose t i = s := by
  unfold State.knockClose
  dsimp only
  rw [h]

/-- R93, R95: the close of an open knock window, behind the auto-range step and the close notice. -/
theorem State.knockClose_some {i : Nat} {k : KnockIntegrator} {σ : Sensor}
    (hσ : (s.cfg.active.row (s.cfg.active.slotRow i)).sensor = σ) (h : (s.kfe.chain.get σ).knock = some k) (t : Stamp) {w : State}
    (hw : w = (s.autoRange t σ k).noticeClose t σ k.clip (decide (k.n < 4))) :
    s.knockClose t i = State.tryKnock
      { w with
        kfe := { w.kfe with chain := s.kfe.chain.set σ { s.kfe.chain.get σ with knock := none } }
        cyt := { w.cyt with
                 pendingList := w.cyt.pendingList.map fun y =>
                   if y.slot = k.slot ∧ y.cycle = k.cycle then { y with knockPlace := some k.result } else y } }
      t k.slot k.cycle := by
  have chain : w.kfe.chain = s.kfe.chain := by
    obtain ⟨rows, ports, e⟩ := s.autoRange_eq t σ k
    rw [hw, (State.noticeClose_frame _ t σ _ _).kfe, e]
  unfold State.knockClose
  dsimp only
  rw [hσ, h]
  dsimp only
  rw [show k.result.clipped = k.clip from rfl, show k.result.noWindow = decide (k.n < 4) from rfl, ← hw, ← chain, ← Cyt.write_eq]
  rfl

theorem State.guardClose_none {i : Nat}
    (h : (s.kfe.chain.get (s.cfg.active.row (s.cfg.active.slotRow i)).sensor).guard = none) (t : Stamp) : s.guardClose t i = s := by
  unfold State.guardClose
  dsimp only
  rw [h]

theorem State.guardClose_some {i : Nat} {q : GuardIntegrator} {σ : Sensor}
    (hσ : (s.cfg.active.row (s.cfg.active.slotRow i)).sensor = σ) (h : (s.kfe.chain.get σ).guard = some q) (t : Stamp) :
    s.guardClose t i = State.tryKnock
      { s with
        kfe := { s.kfe with chain := s.kfe.chain.set σ { s.kfe.chain.get σ with guard := none } }
        cyt := { s.cyt with
                 pendingList := s.cyt.pendingList.map fun y =>
                   if y.slot = q.slot ∧ y.cycle = q.cycle then { y with guardPlace := .result q.result } else y } }
      t q.slot q.cycle := by
  unfold State.guardClose
  dsimp only
  rw [hσ, h]
  dsimp only
  rw [← Cyt.write_eq]
  rfl

/-- Settles O28: the two results by their tests, and what the closes write. -/
theorem windowResults : Obligations.WindowResults := by
  refine ⟨fun k => ⟨rfl, rfl, rfl, decide_eq_true_iff, fun short => ?_, fun long => ?_⟩, fun q => ?_, fun t c s z i mark => ?_⟩
  · have level := KnockIntegrator.result_short short
    exact ⟨level, congrArg (Option.map fun v => normalised v k.gain) level⟩
  · have level := KnockIntegrator.result_level long
    obtain ⟨exact', bound⟩ := normalised_spec k.sum k.n k.gain
    exact ⟨_, _, level, congrArg (Option.map fun v => normalised v k.gain) level, rfl, exact', bound⟩
  · rw [GuardIntegrator.result_eq]
    refine ⟨by split <;> [rfl; (split <;> rfl)], by split <;> [rfl; (split <;> rfl)], fun void => ?_, fun fine short => ?_,
      fun fine long => ?_⟩
    · rw [if_pos void]
      exact ⟨rfl, rfl⟩
    · rw [if_neg (by rw [fine]; decide), if_pos short]
      exact ⟨rfl, rfl⟩
    · rw [if_neg (by rw [fine]; decide), if_neg (Nat.not_lt.mpr long)]
      obtain ⟨exact', bound⟩ := normalised_spec q.sum q.n q.gain
      exact ⟨rfl, _, rfl, exact', bound⟩
  · intro σ chain closed
    have knock : State.raise t c s ⟨z, .knockClose, i⟩ = s.knockClose t i := if_pos mark
    have guard : State.raise t c s ⟨z, .guardClose, i⟩ = s.guardClose t i := if_pos mark
    rw [knock, guard]
    refine ⟨fun none => State.knockClose_none none t, fun k hk idle => ?_, fun none => State.guardClose_none none t,
      fun q hq => State.guardClose_some rfl hq t⟩
    have quiet : (s.autoRange t σ k).noticeClose t σ k.clip (decide (k.n < 4)) = s.autoRange t σ k := by
      obtain ⟨rows, ports, e⟩ := s.autoRange_eq t σ k
      refine State.noticeClose_idle ?_ t σ _ _
      rw [e]
      exact idle
    rw [State.knockClose_some rfl hk t quiet.symm]
    obtain ⟨rows, ports, e⟩ := s.autoRange_eq t σ k
    rw [e]
    rfl

/-! ### The knock verdict (R109 to R117) -/

theorem GuardPlace.gn_of_valid {x : GuardPlace} {g : GuardResult} (h : x = .result g) (valid : g.state = .valid) : x.gn = g.gn := by
  rw [h]
  exact if_pos valid

theorem GuardPlace.gn_of_notValid {x : GuardPlace} (h : x.state ≠ .valid) : x.gn = none := by
  cases x with
  | empty => rfl
  | notConfigured => rfl
  | result r => exact if_neg h

/-- The verdict once overspeed, a cut, NO_WINDOW and CLIPPED are passed. -/
theorem judgeKnock_passes {x : KnockInputs} (speed : x.overspeed = false) (cut : x.cut = none) (window : x.knock.noWindow = false)
    (clip : x.knock.clipped = false) (img : Image) (kna : Kna) :
    judgeKnock img kna x = match x.guard.gn with
      | none => judgeRatio img kna x none
      | some gn =>
        if img.guardThr ≤ guardRatio img (kna.gref.get x.sensor) gn then
          ⟨kna, x.judged .noise none none (some (guardRatio img (kna.gref.get x.sensor) gn)),
            some (.noise x.sensor (guardRatio img (kna.gref.get x.sensor) gn) gn)⟩
        else judgeRatio img { kna with gref := kna.gref.set x.sensor (adaptRef img (kna.gref.get x.sensor) gn) } x
          (some (guardRatio img (kna.gref.get x.sensor) gn)) := by
  unfold judgeKnock
  rw [speed, cut, window, clip]
  rfl

theorem judgeRatio_knock {img : Image} {kna : Kna} {x : KnockInputs}
    (h : img.knockThr x.set x.band ≤ knockRatio (kna.cyl.get x.cyl).ref (orZero x.knock.inorm)) (q : Option Nat) :
    let c := kna.cyl.get x.cyl
    let k := knockRatio c.ref (orZero x.knock.inorm)
    let step := img.stepFor k (img.knockThr x.set x.band)
    judgeRatio img kna x q =
      ⟨{ kna with cyl := kna.cyl.set x.cyl (c.afterKnock img step) }, x.judged .knock none (some k) q,
        some (.knock k (orZero x.knock.inorm) (c.afterKnock img step).retard step x.set)⟩ := if_pos h

theorem judgeRatio_clean {img : Image} {kna : Kna} {x : KnockInputs}
    (h : knockRatio (kna.cyl.get x.cyl).ref (orZero x.knock.inorm) < img.knockThr x.set x.band) (q : Option Nat) :
    let c := kna.cyl.get x.cyl
    judgeRatio img kna x q =
      ⟨{ kna with cyl := kna.cyl.set x.cyl (c.afterClean img (orZero x.knock.inorm)) },
        x.judged .clean none (some (knockRatio c.ref (orZero x.knock.inorm))) q, none⟩ := if_neg (Nat.not_le.mpr h)

/-- The verdict of the knock ratio leaves the guard references. -/
theorem judgeRatio_gref (img : Image) (kna : Kna) (x : KnockInputs) (q : Option Nat) : (judgeRatio img kna x q).kna.gref = kna.gref := by
  unfold judgeRatio
  dsimp only
  split <;> rfl

/-- The pending entry found is the one named. -/
theorem Cyt.find_named {y : Cyt} {slot : Nat} {cycle : Half} {i : SlotInst} (h : y.find slot cycle = some i) :
    i.slot = slot ∧ i.cycle = cycle := by
  have := List.find?_some h
  simpa [SlotInst.named] using this

theorem State.tryKnock_none {slot : Nat} {cycle : Half} (h : s.cyt.find slot cycle = none) (t : Stamp) :
    s.tryKnock t slot cycle = s := by
  unfold State.tryKnock
  rw [h]

/-- R107: an entry whose inputs are not all there, or that has its knock part, is not decided. -/
theorem State.tryKnock_waits {slot : Nat} {cycle : Half} {i : SlotInst} (h : s.cyt.find slot cycle = some i)
    (waits : i.knockPlace = none ∨ i.guardPlace = .empty ∨ i.spark = none ∨ i.knock.isSome = true) (t : Stamp) :
    s.tryKnock t slot cycle = s := by
  unfold State.tryKnock
  rw [h]
  dsimp only
  split
  · next k p hk hp hn =>
    refine if_neg fun complete => ?_
    obtain none | empty | none | some := waits
    · exact nomatch hk.symm.trans none
    · simp [SlotInst.frontComplete, empty] at complete
    · exact nomatch hp.symm.trans none
    · simp [hn] at some
  · rfl

/-- R107, R108, R118: the entry whose inputs are there is decided. -/
theorem State.tryKnock_decides {slot : Nat} {cycle : Half} {i : SlotInst} (h : s.cyt.find slot cycle = some i) {k : KnockResult}
    {p : SparkPart} {m : Snapshot} (hk : i.knockPlace = some k) (hg : i.guardPlace ≠ .empty) (hp : i.spark = some p)
    (hm : i.snapshot = some m) (hn : i.knock = none) (t : Stamp) :
    s.tryKnock t slot cycle = s.applyKnock t i (judgeKnock s.cfg.active s.kna
      ⟨s.adec.overspeed, s.adec.band, p.cut, m.set, i.cyl, i.sensor, k, i.guardPlace⟩) := by
  have complete : i.frontComplete = true := by simp [SlotInst.frontComplete, hk, hg]
  have snap : i.snap = m := by rw [SlotInst.snap, hm]; rfl
  unfold State.tryKnock
  rw [h]
  dsimp only
  rw [hk, hp, hn]
  dsimp only
  rw [if_pos complete, snap]

theorem State.applyKnock_eq (s : State) (t : Stamp) (i : SlotInst) (d : KnockDecision) :
    s.applyKnock t i d = State.tryComplete
      { s with
        kna := d.kna
        ports := match d.record with
          | none => s.ports
          | some b => s.ports.map (offered ⟨some i.cyl, i.cycle, t, b⟩)
        cyt := { s.cyt with
                 pendingList := s.cyt.pendingList.map fun y =>
                   if y.slot = i.slot ∧ y.cycle = i.cycle then
                     { y with knock := some ⟨d.judged, (d.kna.cyl.get i.cyl).ref⟩ }
                   else y } }
      t i.slot i.cycle := by
  unfold State.applyKnock
  rw [State.emitFor_eq, ← Cyt.write_eq]
  rfl

/-- Settles O30: the tests of the verdict in their order, and when and how a pending entry is decided. -/
theorem knockVerdicts : Obligations.KnockVerdicts := by
  refine ⟨fun img kna x => ?_, fun t s slot cycle => ?_⟩
  · intro d gref K thr carried
    refine ⟨fun fast => if_pos fast, fun speed cut => ?_, fun speed cut window => ?_, fun speed cut window clip => ?_,
      fun speed cut window clip => ⟨fun g gn hx valid hgn => ?_, fun invalid => ?_⟩⟩
    · exact (if_neg (by rw [speed]; decide)).trans (if_pos cut)
    · exact (if_neg (by rw [speed]; decide)).trans ((if_neg (by rw [cut]; decide)).trans (if_pos window))
    · exact (if_neg (by rw [speed]; decide)).trans ((if_neg (by rw [cut]; decide)).trans
        ((if_neg (by rw [window]; decide)).trans (if_pos clip)))
    · intro Q
      have rule := judgeKnock_passes speed cut window clip img kna
      rw [(GuardPlace.gn_of_valid hx valid).trans hgn] at rule
      refine ⟨fun noise => rule.trans (if_pos noise), fun quiet loud => ?_, fun quiet low => ?_⟩
      · have := rule.trans ((if_neg (Nat.not_le.mpr quiet)).trans (judgeRatio_knock (by exact loud) _))
        exact congrArg KnockDecision.judged this
      · have := rule.trans ((if_neg (Nat.not_le.mpr quiet)).trans (judgeRatio_clean (by exact low) _))
        exact congrArg KnockDecision.judged this
    · have rule := judgeKnock_passes speed cut window clip img kna
      rw [GuardPlace.gn_of_notValid invalid] at rule
      exact ⟨fun loud => congrArg KnockDecision.judged (rule.trans (judgeRatio_knock (by exact loud) _)),
        fun low => congrArg KnockDecision.judged (rule.trans (judgeRatio_clean (by exact low) _)),
        (congrArg (fun d => d.kna.gref) rule).trans (judgeRatio_gref _ _ _ _)⟩
  · intro found
    refine ⟨fun none => State.tryKnock_none none t, fun i hi => ⟨fun waits => State.tryKnock_waits hi waits t,
      fun k p m hk hg hp hm hn => ?_⟩⟩
    obtain ⟨rfl, rfl⟩ := Cyt.find_named hi
    exact (State.tryKnock_decides hi hk hg hp hm hn t).trans (State.applyKnock_eq _ _ _ _)

/-- R113, R116: a reference adapts by the truncated difference and is clamped. -/
theorem adaptRef_spec {img : Image} (floor : img.refFloor ≤ 2097120) (old v : Nat) :
    let y : Int := (old : Int) + Int.tdiv ((v : Int) - old) (2 ^ img.adaptShift)
    (y ≤ img.refFloor → adaptRef img old v = img.refFloor) ∧ (2097120 ≤ y → adaptRef img old v = 2097120) ∧
      ((img.refFloor : Int) ≤ y → y ≤ 2097120 → (adaptRef img old v : Int) = y) := by
  intro y
  have value : adaptRef img old v = max img.refFloor (min 2097120 y.toNat) := rfl
  rw [value]
  omega

theorem KnockCounts.afterClean_eq (c : KnockCounts) (img : Image) (v : Nat) :
    (c.afterClean img v).ref = adaptRef img c.ref v ∧
    (img.recoveryCycles ≤ c.recovery + 1 →
      (c.afterClean img v).retard = c.retard - img.recoveryStep ∧ (c.afterClean img v).recovery = 0) ∧
    (c.recovery + 1 < img.recoveryCycles →
      (c.afterClean img v).retard = c.retard ∧ (c.afterClean img v).recovery = c.recovery + 1) := by
  unfold KnockCounts.afterClean
  refine ⟨by split <;> rfl, fun h => ?_, fun h => ?_⟩
  · rw [if_pos h]
    exact ⟨rfl, rfl⟩
  · rw [if_neg (Nat.not_le.mpr h)]
    exact ⟨rfl, rfl⟩

/-- What the knock ratio decides, over the guard references as they stand then. -/
theorem judgeRatio_effects {img : Image} (floor : img.refFloor ≤ 2097120) (kna : Kna) (x : KnockInputs) (q : Option Nat) :
    let d := judgeRatio img kna x q
    let c := kna.cyl.get x.cyl
    let c' := d.kna.cyl.get x.cyl
    let inorm := orZero x.knock.inorm
    let K := knockRatio c.ref inorm
    let thr := img.knockThr x.set x.band
    let step := img.stepFor K thr
    let y : Int := (c.ref : Int) + Int.tdiv ((inorm : Int) - c.ref) (2 ^ img.adaptShift)
    (∀ y : Cyl, y ≠ x.cyl → d.kna.cyl.get y = kna.cyl.get y) ∧
    (thr ≤ K → c'.ref = c.ref ∧ c'.retard = min img.retardMax (c.retard + step) ∧ c'.recovery = 0 ∧
      d.record = some (.knock K inorm c'.retard step x.set)) ∧
    (K < thr → d.record = none ∧
      ((y ≤ img.refFloor → c'.ref = img.refFloor) ∧ (2097120 ≤ y → c'.ref = 2097120) ∧
        ((img.refFloor : Int) ≤ y → y ≤ 2097120 → (c'.ref : Int) = y)) ∧
      (img.recoveryCycles ≤ c.recovery + 1 → c'.retard = c.retard - img.recoveryStep ∧ c'.recovery = 0) ∧
      (c.recovery + 1 < img.recoveryCycles → c'.retard = c.retard ∧ c'.recovery = c.recovery + 1)) := by
  intro d c c' inorm K thr step y
  by_cases loud : thr ≤ K
  · have hd : d = _ := judgeRatio_knock loud q
    have here : c' = c.afterKnock img step := by
      show d.kna.cyl.get x.cyl = _
      rw [hd]
      exact PerCyl.get_set_same _ _ _
    refine ⟨fun y hy => by rw [hd]; exact PerCyl.get_set_ne _ _ hy, fun _ => ?_, fun low => absurd low (Nat.not_lt.mpr loud)⟩
    rw [here, hd]
    exact ⟨rfl, rfl, rfl, rfl⟩
  · have hd : d = _ := judgeRatio_clean (Nat.lt_of_not_le loud) q
    have here : c' = c.afterClean img inorm := by
      show d.kna.cyl.get x.cyl = _
      rw [hd]
      exact PerCyl.get_set_same _ _ _
    refine ⟨fun y hy => by rw [hd]; exact PerCyl.get_set_ne _ _ hy, fun h => absurd h loud, fun _ => ?_⟩
    obtain ⟨ref, recovers, counts⟩ := c.afterClean_eq img inorm
    rw [here, ref, hd]
    exact ⟨rfl, adaptRef_spec floor _ _, recovers, counts⟩

/-- Settles O31: the guard reference adapts, and then the knock ratio decides. -/
theorem retardAndReferences : Obligations.RetardAndReferences := by
  intro img kna x floor speed cut window clip quiet
  have rule := judgeKnock_passes speed cut window clip img kna
  cases hg : x.guard.gn with
  | none =>
    rw [hg] at rule
    obtain ⟨others, loud, low⟩ := judgeRatio_effects floor kna x none
    have gref := judgeRatio_gref img kna x none
    dsimp only at rule
    rw [rule]
    exact ⟨others, fun σ _ => by rw [gref], fun _ => by rw [gref], fun gn h => (nomatch h), loud, low⟩
  | some gn =>
    rw [hg] at rule
    have below := quiet gn hg
    replace rule := rule.trans (if_neg (Nat.not_le.mpr below))
    obtain ⟨others, loud, low⟩ := judgeRatio_effects floor
      { kna with gref := kna.gref.set x.sensor (adaptRef img (kna.gref.get x.sensor) gn) } x
      (some (guardRatio img (kna.gref.get x.sensor) gn))
    have gref := judgeRatio_gref img
      { kna with gref := kna.gref.set x.sensor (adaptRef img (kna.gref.get x.sensor) gn) } x
      (some (guardRatio img (kna.gref.get x.sensor) gn))
    rw [rule]
    refine ⟨others, fun σ hσ => ?_, fun h => (nomatch h), fun gn' h => ?_, loud, low⟩
    · rw [gref]
      exact PerSensor.get_set_ne _ _ hσ
    · obtain rfl := Option.some.inj h
      rw [gref, PerSensor.get_set_same]
      exact adaptRef_spec floor _ _

/-! ### The completion (R133, R134) -/

theorem State.endFilling_modCyt (s : State) (t : Stamp) (o : CapOutcome) (f : Cyt → Cyt) :
    (s.endFilling t o).modCyt f = (s.modCyt f).endFilling t o := by
  unfold State.endFilling
  rw [show (s.modCyt f).cap = s.cap from rfl]
  cases s.cap.activeRequest <;> rfl

/-- A grant and the cylinder table do not touch one another. -/
theorem State.grant_modCyt (s : State) (t : Stamp) (f : Cyt → Cyt) : (s.grant t).modCyt f = (s.modCyt f).grant t := by
  unfold State.grant
  rw [show (s.modCyt f).cap = s.cap from rfl, show (s.modCyt f).cfg = s.cfg from rfl]
  split
  · split
    · rfl
    · split
      · exact State.endFilling_modCyt _ t _ f
      · rfl
  · rfl

theorem State.latchAll_modCyt (s : State) (t : Stamp) (conds : Request → Byte) (f : Cyt → Cyt) :
    (s.latchAll t conds).modCyt f = (s.modCyt f).latchAll t conds := State.grant_modCyt _ t f

theorem State.tryComplete_waits {slot : Nat} {cycle : Half} {i : SlotInst} (h : s.cyt.find slot cycle = some i)
    (waits : i.misfire = none ∨ i.knock = none) (t : Stamp) : s.tryComplete t slot cycle = s := by
  unfold State.tryComplete
  rw [h]
  dsimp only
  split
  · next m k hm hk => simp [hm, hk] at waits
  · rfl

theorem State.tryComplete_completes {slot : Nat} {cycle : Half} {i : SlotInst} (h : s.cyt.find slot cycle = some i) {m : MisfirePart}
    {k : KnockPart} (hm : i.misfire = some m) (hk : i.knock = some k) (t : Stamp) :
    s.tryComplete t slot cycle = s.complete t i m k := by
  unfold State.tryComplete
  rw [h]
  dsimp only
  rw [hm, hk]

/-- R134: the completion with its notice taken last. -/
theorem State.complete_eq (s : State) (t : Stamp) (i : SlotInst) (m : MisfirePart) (k : KnockPart) :
    s.complete t i m k = State.noticeCompletion
      { s with
        cyt := Cyt.remove { s.cyt with entry := s.cyt.entry.set i.cyl (publish (s.cyt.entry.get i.cyl) i m k (s.kna.cyl.get i.cyl)) }
          i.slot i.cycle
        ports := s.ports.map (offered (slotRecord t i m k (s.kna.cyl.get i.cyl))) }
      t i.cyl m.judged.verdict k.judged.verdict := by
  unfold State.complete State.noticeCompletion
  dsimp only
  rw [State.latchAll_modCyt, emit_offered]
  rfl

/-- Settles O33: the entry that completes, with and without requests, and the one that waits for a part. -/
theorem completion : Obligations.Completion := by
  intro t s i found
  refine ⟨fun waits => State.tryComplete_waits found waits t, fun m k n sp hm hk hn hsp => ?_⟩
  intro c old up done
  have snap : i.snap = n := by rw [SlotInst.snap, hn]; rfl
  have spark : i.sparkPart = sp := by rw [SlotInst.sparkPart, hsp]; rfl
  have entry : publish old i m k c =
      { inUse := old.inUse, assessed := true, row := i.row, cycle := i.cycle, misfire := m.judged, cons := m.cons,
        block := m.block, knock := k.judged, ref := k.ref, retard := c.retard, recovery := c.recovery, spark := sp,
        set := n.set, stale := n.stale,
        life := { misfires := up (decide (m.judged.verdict = .misfire)) old.life.misfires
                  knocks := up (decide (k.judged.verdict = .knock)) old.life.knocks
                  noise := up (decide (k.judged.verdict = .noise)) old.life.noise
                  cuts := up sp.cut.isSome old.life.cuts } } := by
    unfold publish Lifetime.count
    rw [snap, spark]
    simp only [up, decide_eq_true_eq, bump]
  have record : slotRecord t i m k c =
      ⟨some i.cyl, i.cycle, t, .slot i.row m.judged k.judged c.retard c.recovery sp n.set n.stale⟩ := by
    unfold slotRecord
    rw [snap, spark]
  have rule : s.tryComplete t i.slot i.cycle = done.noticeCompletion t i.cyl m.judged.verdict k.judged.verdict := by
    rw [State.tryComplete_completes found hm hk, State.complete_eq, show publish _ i m k _ = _ from entry,
      show slotRecord t i m k _ = _ from record]
    rfl
  refine ⟨fun none => ?_, rule⟩
  rw [rule, State.noticeCompletion, State.latchAll_empty (by exact none)]

end Sys2Proof.Machine
end

section
/-! PROOFS. The samples, and what a capture stores and how it ends (sections 5.2 and 9.6 to 9.8): O26, O27. -/

namespace Sys2Proof.Machine

variable {s u v : State}

/-! ### The knock samples (R86, R92) -/

/-- R86: a stamp is a sample instant when a whole number of 20-tick spacings has passed. -/
theorem Kfe.sampleDue_iff (k : Kfe) (t : Stamp) : k.sampleDue t = true ↔ ∃ n : Nat, (t - k.lastSample).toNat = 20 * (n + 1) := by
  unfold Kfe.sampleDue
  rw [Bool.and_eq_true, decide_eq_true_iff, decide_eq_true_iff]
  show 0 < (t - k.lastSample).toNat ∧ (t - k.lastSample).toNat % 20 = 0 ↔ _
  constructor
  · rintro ⟨pos, whole⟩
    exact ⟨(t - k.lastSample).toNat / 20 - 1, by omega⟩
  · rintro ⟨n, hn⟩
    omega

/-- R86, R92: KFE after the samples of both sensors, the capture unit's share apart. -/
def State.sampledKfe (s : State) (t : Stamp) (raw0 raw1 : Half) : Kfe :=
  { s.kfe with
    lastSample := t
    chain := ⟨s.kfe.chain.s0.sample (s.cfg.active.centre .ks0) raw0, s.kfe.chain.s1.sample (s.cfg.active.centre .ks1) raw1⟩ }

/-- R101: the raw sample of a sensor whose knock integrator is open goes to the capture unit. -/
def State.handsSample (k : Kfe) (s : State) (t : Stamp) (σ : Sensor) (raw : Half) : State :=
  if (k.chain.get σ).knock.isSome then s.noticeSample t σ raw else s

/-- The end of filling does not read KFE. -/
theorem State.endFilling_setKfe (s : State) (t : Stamp) (o : CapOutcome) (k : Kfe) :
    (s.endFilling t o).setKfe k = (s.setKfe k).endFilling t o := by
  unfold State.endFilling
  rw [show (s.setKfe k).cap = s.cap from rfl]
  cases s.cap.activeRequest <;> rfl

theorem State.noticeSample_setKfe (s : State) (t : Stamp) (σ : Sensor) (raw : Half) (k : Kfe) :
    (s.noticeSample t σ raw).setKfe k = (s.setKfe k).noticeSample t σ raw := by
  unfold State.noticeSample
  rw [show (s.setKfe k).cap = s.cap from rfl]
  cases s.cap.recordingOn σ with
  | none => rfl
  | some x =>
    dsimp only
    split
    · rfl
    · exact State.endFilling_setKfe _ t _ k

theorem State.handsSample_frame (k : Kfe) (s : State) (t : Stamp) (σ : Sensor) (raw : Half) :
    CapFrame s (s.handsSample k t σ raw) := by
  unfold State.handsSample
  split
  · exact s.noticeSample_frame t σ raw
  · exact .refl _

theorem State.handsSample_setKfe (k : Kfe) (s : State) (t : Stamp) (σ : Sensor) (raw : Half) (k' : Kfe) :
    (s.handsSample k t σ raw).setKfe k' = (s.setKfe k').handsSample k t σ raw := by
  unfold State.handsSample
  split
  · exact s.noticeSample_setKfe t σ raw k'
  · rfl

/-- Both chains take their samples, and each hands its own to the capture unit. -/
theorem State.sample_eq (s : State) (t : Stamp) (raw0 raw1 : Half) :
    s.sample t raw0 raw1 =
      ((s.setKfe (s.sampledKfe t raw0 raw1)).handsSample s.kfe t .ks0 raw0).handsSample s.kfe t .ks1 raw1 := by
  let first := (s.setKfe { s.kfe with lastSample := t }).modChain .ks0 fun c => c.sample (s.cfg.active.centre .ks0) raw0
  let handed := first.handsSample s.kfe t .ks0 raw0
  have frame : CapFrame first handed := first.handsSample_frame s.kfe t .ks0 raw0
  have next : (handed.modChain .ks1 fun c => c.sample (handed.cfg.active.centre .ks1) raw1) =
      (s.setKfe (s.sampledKfe t raw0 raw1)).handsSample s.kfe t .ks0 raw0 := by
    unfold State.modChain
    rw [frame.kfe, frame.cfg]
    exact first.handsSample_setKfe s.kfe t .ks0 raw0 _
  have same : (handed.kfe.chain.get .ks1).knock = (s.kfe.chain.get .ks1).knock := by
    rw [frame.kfe]
    rfl
  show handed.sampleSensor t .ks1 raw1 = _
  unfold State.sampleSensor
  dsimp only
  rw [next, same]
  rfl

theorem State.noticeSample_idle {σ : Sensor} (h : s.cap.recordingOn σ = none) (t : Stamp) (raw : Half) :
    s.noticeSample t σ raw = s := by
  unfold State.noticeSample
  rw [h]

/-- While no window is recorded, the samples change KFE alone. -/
theorem State.sample_idle (h : ∀ σ, s.cap.recordingOn σ = none) (t : Stamp) (raw0 raw1 : Half) :
    s.sample t raw0 raw1 = s.setKfe (s.sampledKfe t raw0 raw1) := by
  have none : ∀ σ raw, State.handsSample s.kfe (s.setKfe (s.sampledKfe t raw0 raw1)) t σ raw =
      s.setKfe (s.sampledKfe t raw0 raw1) := by
    intro σ raw
    unfold State.handsSample
    rw [State.noticeSample_idle (by exact h σ), ite_self]
  rw [State.sample_eq, none, none]

/-- A window that is recorded: the capture fills with a KNOCK_RAW request, and the window is of that sensor. -/
theorem Cap.recordingOn_some {c : Cap} {r : Request} {w : CapWindow} (hu : c.unit = .filling) (ha : c.activeRequest = some r)
    (hk : r.kind = .knockRaw) (hw : c.window = some w) : c.recordingOn w.sensor = some (r, w) := by
  unfold Cap.recordingOn
  rw [Cap.fillingAs_eq hu ha, if_pos hk, hw]
  exact if_pos rfl

theorem Cap.recordingOn_other {c : Cap} {σ : Sensor} (h : ∀ w, c.window = some w → w.sensor ≠ σ) : c.recordingOn σ = none := by
  unfold Cap.recordingOn
  split
  · next r w _ hw => exact if_neg (h w hw)
  · rfl

theorem NoWindowRecorded.recordingOn (h : NoWindowRecorded s) (σ : Sensor) : s.cap.recordingOn σ = none := by
  cases hf : s.cap.fillingAs .knockRaw with
  | none => exact Cap.recordingOn_none hf σ
  | some r =>
    obtain ⟨hu, ha, hk⟩ := Cap.fillingAs_some hf
    exact Cap.recordingOn_other fun w hw => nomatch hw.symm.trans (h hu r ha hk)

/-- A sensor of which no window is recorded hands nothing that is stored. -/
theorem State.handsSample_idle {σ : Sensor} (h : s.cap.recordingOn σ = none) (k : Kfe) (t : Stamp) (raw : Half) :
    s.handsSample k t σ raw = s := by
  unfold State.handsSample
  rw [State.noticeSample_idle h, ite_self]

/-- R163, R164: what a raw sample of the recorded window does. -/
theorem State.noticeSample_recorded {r : Request} {w : CapWindow} (hu : s.cap.unit = .filling) (ha : s.cap.activeRequest = some r)
    (hk : r.kind = .knockRaw) (hw : s.cap.window = some w) (t : Stamp) (raw : Half) :
    s.noticeSample t w.sensor raw =
      if s.cap.mem.words.length < 4096 then
        { s with cap := { s.cap with mem := ⟨(s.cap.mem.words ++ [raw]).modify (w.header + 2) (· + 1)⟩ } }
      else
        State.captureHeld
          { s with cap := { s.cap with mem := ⟨s.cap.mem.words.modify (w.header + 3) (· ||| 4#16)⟩
                                       recorded := s.cap.recorded + 1, window := none } } t r .truncated := by
  unfold State.noticeSample
  rw [Cap.recordingOn_some hu ha hk hw]
  dsimp only
  by_cases room : s.cap.mem.words.length < 4096
  · rw [if_pos room, if_pos (by exact room)]
    have push : s.cap.mem.push raw = ⟨s.cap.mem.words ++ [raw]⟩ := if_pos room
    unfold State.modCap
    dsimp only
    rw [push]
    rfl
  · rw [if_neg room, if_neg (by exact room)]
    exact State.endFilling_eq (by exact ha) t _

/-- A sample of the recorded window leaves no window of the other sensor. -/
theorem State.noticeSample_other {r : Request} {w : CapWindow} (hu : s.cap.unit = .filling) (ha : s.cap.activeRequest = some r)
    (hk : r.kind = .knockRaw) (hw : s.cap.window = some w) (t : Stamp) (raw : Half) {σ : Sensor} (other : w.sensor ≠ σ) :
    (s.noticeSample t w.sensor raw).cap.recordingOn σ = none := by
  rw [State.noticeSample_recorded hu ha hk hw]
  refine Cap.recordingOn_other fun x hx => ?_
  split at hx
  · obtain rfl := Option.some.inj (hw.symm.trans hx)
    exact other
  · exact nomatch hx

/-- The sensor of which a window is recorded hands its sample to the capture unit; the other hands nothing that is stored. -/
theorem State.sample_recorded {r : Request} {w : CapWindow} (hu : s.cap.unit = .filling) (ha : s.cap.activeRequest = some r)
    (hk : r.kind = .knockRaw) (hw : s.cap.window = some w) (opened : (s.kfe.chain.get w.sensor).knock.isSome = true) (t : Stamp)
    (raw0 raw1 : Half) :
    s.sample t raw0 raw1 = (s.setKfe (s.sampledKfe t raw0 raw1)).noticeSample t w.sensor
      (match w.sensor with | .ks0 => raw0 | .ks1 => raw1) := by
  have hands : ∀ raw, (s.setKfe (s.sampledKfe t raw0 raw1)).handsSample s.kfe t w.sensor raw =
      (s.setKfe (s.sampledKfe t raw0 raw1)).noticeSample t w.sensor raw := fun raw => if_pos opened
  rw [State.sample_eq]
  obtain ⟨σ, header⟩ := w
  cases σ with
  | ks0 =>
    rw [hands]
    exact State.handsSample_idle (State.noticeSample_other (s := s.setKfe (s.sampledKfe t raw0 raw1)) (w := ⟨.ks0, header⟩) hu ha hk hw t raw0 (σ := .ks1) Sensor.noConfusion) _ t raw1
  | ks1 =>
    have idle : s.cap.recordingOn .ks0 = none := Cap.recordingOn_other fun x hx => by
      obtain rfl := Option.some.inj (hw.symm.trans hx)
      exact Sensor.noConfusion
    rw [State.handsSample_idle (s := s.setKfe (s.sampledKfe t raw0 raw1)) (σ := .ks0) idle]
    exact hands raw1

/-- Settles O26: at an instant both chains count their sample; off the grid only time passes. -/
theorem knockSample : Obligations.KnockSample := by
  intro t raw0 raw1 s h img counted
  have rule : exec (.knockSample t raw0 raw1) s =
      .next (if s.kfe.sampleDue t then (s.setTimebase t).sample t raw0 raw1 else s.setTimebase t) :=
    congrArg _ (onEvent_running h t _)
  refine ⟨fun k due idle => ?_, fun none => ?_⟩
  · rw [rule, if_pos ((Kfe.sampleDue_iff _ t).mpr ⟨k, due⟩), State.sample_idle (NoWindowRecorded.recordingOn (by exact idle))]
    have chain : ∀ (c : SensorChain) (centre : Nat) (raw : Half), c.sample centre raw = counted centre raw c := by
      intro c centre raw
      have limit : atLimit raw = (decide (raw.toInt = -32768) || decide (raw.toInt = 32767)) := by
        simp only [atLimit, ← BitVec.toInt_inj]
        rfl
      unfold SensorChain.sample KnockIntegrator.count
      rw [limit]
      simp only [Bool.or_assoc, counted]
      rfl
    unfold State.sampledKfe
    rw [chain, chain]
    rfl
  · rw [rule, if_neg fun due => none ((Kfe.sampleDue_iff _ t).mp due)]
    rfl

/-! ### What a capture stores (R163 to R165) -/

theorem execKnockSample_due (h : s.running = true) {t : Stamp} {k : Nat} (due : (t - s.kfe.lastSample).toNat = 20 * (k + 1))
    (raw0 raw1 : Half) : exec (.knockSample t raw0 raw1) s = .next ((s.setTimebase t).sample t raw0 raw1) :=
  (congrArg _ (onEvent_running h t _)).trans (congrArg _ (if_pos ((Kfe.sampleDue_iff _ t).mpr ⟨k, due⟩)))

/-- A word pushed behind a window's header stays the last when the header counts it. -/
theorem modify_append_spec (words : List Half) (x : Half) (f : Half → Half) {i : Nat} (hi : i < words.length) :
    let l := (words ++ [x]).modify i f
    l.length = words.length + 1 ∧ l.getLast? = some x ∧ l[i]? = words[i]?.map f ∧
      ∀ j, j < words.length → j ≠ i → l[j]? = words[j]? := by
  intro l
  have len : l.length = words.length + 1 := by simp [l]
  refine ⟨len, ?_, ?_, fun j hj other => ?_⟩
  · rw [List.getLast?_eq_getElem?, len, Nat.add_sub_cancel]
    show ((words ++ [x]).modify i f)[words.length]? = _
    rw [List.getElem?_modify_ne _ _ (by omega)]
    exact List.getElem?_concat_length
  · rw [List.getElem?_modify_eq, List.getElem?_append_left hi]
    rfl
  · show ((words ++ [x]).modify i f)[j]? = _
    rw [List.getElem?_modify_ne _ _ (Ne.symm other), List.getElem?_append_left hj]

/-- R163: a window open of the target writes a header, or ends the capture. -/
theorem State.noticeOpen_spec {r : Request} (hu : s.cap.unit = .filling) (ha : s.cap.activeRequest = some r) (hk : r.kind = .knockRaw)
    (t : Stamp) (σ : Sensor) (n : Cyl) (cycle : Half) (g : Gain) :
    s.noticeOpen t σ n cycle g =
      if r.target = some n then
        if 4096 < s.cap.mem.words.length + 4 then s.captureHeld t r .truncated
        else
          { s with cap := { s.cap with
                            window := some ⟨σ, s.cap.mem.words.length⟩
                            mem := ⟨s.cap.mem.words ++
                              [cycle, BitVec.ofNat 16 g.value, 0#16, if σ = .ks0 then 0#16 else 16#16]⟩ } }
      else s := by
  have flags : headerFlags σ = if σ = .ks0 then 0#16 else 16#16 := by cases σ <;> rfl
  unfold State.noticeOpen
  rw [Cap.fillingAs_eq hu ha, if_pos hk, flags]
  dsimp only
  rw [State.endFilling_eq ha]
  rfl

/-- R164: the state in which the window of header `h` has been closed with its marks and counted. -/
def State.windowClosed (s : State) (h : Nat) (marks : Half) : State :=
  { s with cap := { s.cap with mem := ⟨s.cap.mem.words.modify (h + 3) (· ||| marks)⟩, recorded := s.cap.recorded + 1, window := none } }

theorem State.modCap_closeWindow (s : State) (w : CapWindow) (marks : Half) :
    (s.modCap fun c => c.closeWindow w marks) = s.windowClosed w.header marks := rfl

/-- R163: the capture ends READY at its count. -/
theorem State.windowClosed_atCount {r : Request} (ha : s.cap.activeRequest = some r) (h : Nat) (marks : Half) (t : Stamp) :
    (s.windowClosed h marks).readyAtCount t r.count =
      if s.cap.recorded + 1 = r.count then (s.windowClosed h marks).captureHeld t r .ready else s.windowClosed h marks := by
  unfold State.readyAtCount
  rw [State.endFilling_eq (s := s.windowClosed h marks) ha]
  rfl

theorem State.noticeClose_spec {r : Request} {w : CapWindow} (hu : s.cap.unit = .filling) (ha : s.cap.activeRequest = some r)
    (hk : r.kind = .knockRaw) (hw : s.cap.window = some w) (t : Stamp) (clipped noWindow : Bool) :
    let v := s.windowClosed w.header (match clipped, noWindow with
      | false, false => 0#16 | true, false => 1#16 | false, true => 2#16 | true, true => 3#16)
    s.noticeClose t w.sensor clipped noWindow = if s.cap.recorded + 1 = r.count then v.captureHeld t r .ready else v := by
  intro v
  unfold State.noticeClose
  rw [Cap.recordingOn_some hu ha hk hw]
  dsimp only
  rw [State.modCap_closeWindow, State.windowClosed_atCount ha]
  cases clipped <;> cases noWindow <;> rfl

theorem State.noticeAbandon_spec {r : Request} {w : CapWindow} (hu : s.cap.unit = .filling) (ha : s.cap.activeRequest = some r)
    (hk : r.kind = .knockRaw) (hw : s.cap.window = some w) (t : Stamp) (atLayout : Bool) :
    s.noticeAbandon t w.sensor atLayout =
      if atLayout && r.target.any s.cfg.active.hasCyl then
        if s.cap.recorded + 1 = r.count then (s.windowClosed w.header 8#16).captureHeld t r .ready else s.windowClosed w.header 8#16
      else s.windowClosed w.header 8#16 := by
  unfold State.noticeAbandon
  rw [Cap.recordingOn_some hu ha hk hw]
  dsimp only
  rw [State.modCap_closeWindow, State.windowClosed_atCount ha]
  rfl

theorem target_any (o : Option Cyl) (p : Cyl → Bool) : o.any p = true ↔ ∃ c, o = some c ∧ p c = true := by
  cases o <;> simp

/-- R163, R164: a raw sample of the recorded window, stored or finding the memory full. -/
theorem rawSample_stored (t : Stamp) (raw0 raw1 : Half) (s : State) (k : Nat) (r : Request) (σ : Sensor) (h : Nat) (kn : KnockIntegrator)
    (running : s.running = true) (due : (t - s.kfe.lastSample).toNat = 20 * (k + 1)) (hu : s.cap.unit = .filling)
    (ha : s.cap.activeRequest = some r) (hk : r.kind = .knockRaw) (hw : s.cap.window = some ⟨σ, h⟩)
    (opened : (s.kfe.chain.get σ).knock = some kn) :
    exec (.knockSample t raw0 raw1) s = .next
      (State.noticeSample { s with timebase := t, kfe := s.sampledKfe t raw0 raw1 } t σ (match (generalizing := false) σ with | .ks0 => raw0 | .ks1 => raw1)) := by
  rw [execKnockSample_due running due,
    State.sample_recorded (s := s.setTimebase t) (w := ⟨σ, h⟩) hu ha hk hw (by exact Option.isSome_iff_exists.mpr ⟨kn, opened⟩)]
  rfl

/-! ### The ends by a loss (R166) -/

/-- Two states are alike to the capture unit: the unit, the ports, the images and the decoder. -/
structure CaptureAlike (s u : State) : Prop where
  cap : u.cap = s.cap
  ports : u.ports = s.ports
  cfg : u.cfg = s.cfg
  adec : u.adec = s.adec

theorem CaptureAlike.refl (s : State) : CaptureAlike s s := ⟨rfl, rfl, rfl, rfl⟩

theorem CaptureAlike.trans (h : CaptureAlike s u) (k : CaptureAlike u v) : CaptureAlike s v :=
  ⟨k.cap.trans h.cap, k.ports.trans h.ports, k.cfg.trans h.cfg, k.adec.trans h.adec⟩

theorem CaptureAlike.captureHeld (h : CaptureAlike s u) (t : Stamp) (r : Request) (o : CapOutcome) :
    CaptureAlike (s.captureHeld t r o) (u.captureHeld t r o) := by
  unfold State.captureHeld
  constructor <;> dsimp only
  · rw [h.cap, h.cfg]
  · rw [h.ports, h.adec, h.cap]
  · exact h.cfg
  · exact h.adec

theorem CaptureAlike.windowClosed (h : CaptureAlike s u) (i : Nat) (marks : Half) :
    CaptureAlike (s.windowClosed i marks) (u.windowClosed i marks) := by
  unfold State.windowClosed
  constructor <;> dsimp only
  · rw [h.cap]
  · exact h.ports
  · exact h.cfg
  · exact h.adec

/-- The integrators of a sensor of which no window is recorded are discarded without a notice. -/
theorem State.abandonSensor_alike {σ : Sensor} (h : s.cap.recordingOn σ = none) (t : Stamp) (b : Bool) :
    CaptureAlike s (s.abandonSensor t σ b) := by
  unfold State.abandonSensor
  dsimp only
  split
  · unfold State.noticeAbandon
    rw [show (s.modChain σ _).cap.recordingOn σ = none from h]
    exact ⟨rfl, rfl, rfl, rfl⟩
  · exact ⟨rfl, rfl, rfl, rfl⟩

/-- R98, R164: with the integrators of the recorded window's sensor the window goes, and counts. -/
theorem State.abandonSensor_closes {r : Request} {w : CapWindow} (hu : s.cap.unit = .filling) (ha : s.cap.activeRequest = some r)
    (hk : r.kind = .knockRaw) (hw : s.cap.window = some w) (t : Stamp) (σ : Sensor) :
    CaptureAlike s (s.abandonSensor t σ false) ∨ CaptureAlike (s.windowClosed w.header 8#16) (s.abandonSensor t σ false) := by
  by_cases same : w.sensor = σ
  · subst same
    unfold State.abandonSensor
    dsimp only
    split
    · rw [State.noticeAbandon_spec (s := s.modChain w.sensor _) hu ha hk hw]
      exact .inr ⟨rfl, rfl, rfl, rfl⟩
    · exact .inl ⟨rfl, rfl, rfl, rfl⟩
  · refine .inl (State.abandonSensor_alike (Cap.recordingOn_other fun x hx => ?_) t false)
    obtain rfl := Option.some.inj (hw.symm.trans hx)
    exact same

theorem State.abandonWindows_closes {r : Request} {w : CapWindow} (hu : s.cap.unit = .filling) (ha : s.cap.activeRequest = some r)
    (hk : r.kind = .knockRaw) (hw : s.cap.window = some w) (t : Stamp) :
    CaptureAlike s (s.abandonWindows t false) ∨ CaptureAlike (s.windowClosed w.header 8#16) (s.abandonWindows t false) := by
  unfold State.abandonWindows
  obtain first | first := State.abandonSensor_closes hu ha hk hw t .ks0
  · obtain second | second := State.abandonSensor_closes (s := s.abandonSensor t .ks0 false) (by rw [first.cap]; exact hu)
      (by rw [first.cap]; exact ha) hk (by rw [first.cap]; exact hw) t .ks1
    · exact .inl (first.trans second)
    · exact .inr ((first.windowClosed _ _).trans second)
  · refine .inr (first.trans (State.abandonSensor_alike (Cap.recordingOn_other fun x hx => ?_) t false))
    rw [first.cap] at hx
    exact nomatch hx

theorem State.abandonWindows_alike (h : ∀ σ, s.cap.recordingOn σ = none) (t : Stamp) : CaptureAlike s (s.abandonWindows t false) := by
  have first := State.abandonSensor_alike (h .ks0) t false
  exact first.trans (State.abandonSensor_alike (by rw [first.cap]; exact h .ks1) t false)

/-- The sync loss at the capture unit: the windows are abandoned, and then R166's own test. -/
theorem State.syncLoss_alike (s : State) (t : Stamp) : ∃ x y : State, CaptureAlike s x ∧ CaptureAlike (x.abandonWindows t false) y ∧
    s.syncLoss t = y.capSyncLoss t :=
  let x := ((s.setSmap { cursor := none, marks := .replicate 6 false }).setIgsu ⟨none, none, none, none, none, none⟩).modMfa Mfa.loseSync
  ⟨x, (x.abandonWindows t false).modCyt Cyt.discard, ⟨rfl, rfl, rfl, rfl⟩, ⟨rfl, rfl, rfl, rfl⟩, rfl⟩

/-- R166, with R164 for a window that is still open: what a KNOCK_RAW capture is ended as. -/
def State.withoutWindow (s : State) : State :=
  match s.cap.window with
  | none => s
  | some w => s.windowClosed w.header 8#16

theorem State.capSyncLoss_ends {r : Request} (hu : s.cap.unit = .filling) (ha : s.cap.activeRequest = some r)
    (hk : r.kind = .knockRaw) (hm : s.cap.mem.words ≠ []) (t : Stamp) :
    s.capSyncLoss t = s.withoutWindow.captureHeld t r .truncated := by
  unfold State.capSyncLoss State.withoutWindow
  rw [Cap.fillingAs_eq hu ha, if_pos hk]
  dsimp only
  rw [if_neg (show ¬ s.cap.mem.held = 0 from fun none => hm (List.eq_nil_of_length_eq_zero none))]
  cases s.cap.window with
  | none => exact State.endFilling_eq ha t _
  | some w => exact State.endFilling_eq (s := s.windowClosed w.header 8#16) ha t _

/-- R166: a sync loss ends the KNOCK_RAW capture that holds a header. -/
theorem State.syncLoss_ends {r : Request} (hu : s.cap.unit = .filling) (ha : s.cap.activeRequest = some r)
    (hk : r.kind = .knockRaw) (hm : s.cap.mem.words ≠ []) (t : Stamp) :
    CaptureAlike (s.withoutWindow.captureHeld t r .truncated) (s.syncLoss t) := by
  obtain ⟨x, y, hx, hy, e⟩ := s.syncLoss_alike t
  rw [e]
  cases hw : s.cap.window with
  | none =>
    have none : s.withoutWindow = s := by unfold State.withoutWindow; rw [hw]
    have alike : CaptureAlike s y := (hx.trans (State.abandonWindows_alike
      (fun σ => Cap.recordingOn_other fun w h => by rw [hx.cap, hw] at h; exact nomatch h) t)).trans hy
    have none' : y.withoutWindow = y := by unfold State.withoutWindow; rw [alike.cap, hw]
    rw [State.capSyncLoss_ends (by rw [alike.cap]; exact hu) (by rw [alike.cap]; exact ha) hk (by rw [alike.cap]; exact hm),
      none, none']
    exact alike.captureHeld t r _
  | some w =>
    have closed : s.withoutWindow = s.windowClosed w.header 8#16 := by unfold State.withoutWindow; rw [hw]
    rw [closed]
    obtain before | after := State.abandonWindows_closes (s := x) (by rw [hx.cap]; exact hu) (by rw [hx.cap]; exact ha) hk
      (by rw [hx.cap]; exact hw) t
    · have alike := (hx.trans before).trans hy
      have closed' : y.withoutWindow = y.windowClosed w.header 8#16 := by unfold State.withoutWindow; rw [alike.cap, hw]
      rw [State.capSyncLoss_ends (by rw [alike.cap]; exact hu) (by rw [alike.cap]; exact ha) hk (by rw [alike.cap]; exact hm),
        closed']
      exact (alike.windowClosed _ _).captureHeld t r _
    · have alike := ((hx.windowClosed w.header 8#16).trans after).trans hy
      have words : (s.windowClosed w.header 8#16).cap.mem.words ≠ [] := by
        intro h
        refine hm (List.eq_nil_of_length_eq_zero ?_)
        have := congrArg List.length h
        rwa [show (s.windowClosed w.header 8#16).cap.mem.words.length = _ from List.length_modify ..] at this
      have none' : y.withoutWindow = y := by unfold State.withoutWindow; rw [alike.cap]; rfl
      rw [State.capSyncLoss_ends (by rw [alike.cap]; exact hu) (by rw [alike.cap]; exact ha) hk (by rw [alike.cap]; exact words),
        none']
      exact alike.captureHeld t r _

/-- A sync loss leaves a capture that is no KNOCK_RAW one, or that holds nothing. -/
theorem State.syncLoss_spares {r : Request} (hu : s.cap.unit = .filling) (ha : s.cap.activeRequest = some r)
    (h : r.kind = .tooth ∨ (s.cap.mem.words = [] ∧ s.cap.window = none)) (t : Stamp) : CaptureAlike s (s.syncLoss t) := by
  have idle : ∀ σ, s.cap.recordingOn σ = none := by
    intro σ
    obtain tooth | ⟨_, hw⟩ := h
    · exact Cap.recordingOn_none (by rw [Cap.fillingAs_eq hu ha, if_neg (by rw [tooth]; decide)]) σ
    · exact Cap.recordingOn_other fun w hx => nomatch hw.symm.trans hx
  obtain ⟨x, y, hx, hy, e⟩ := s.syncLoss_alike t
  have alike : CaptureAlike s y := (hx.trans (State.abandonWindows_alike (by rw [hx.cap]; exact idle) t)).trans hy
  rw [e]
  have stays : y.capSyncLoss t = y := by
    unfold State.capSyncLoss
    rw [Cap.fillingAs_eq (by rw [alike.cap]; exact hu) (by rw [alike.cap]; exact ha)]
    obtain tooth | ⟨hm, _⟩ := h
    · rw [if_neg (by rw [tooth]; decide)]
    · split
      · rfl
      · exact if_pos (by rw [alike.cap, Memory.held, hm]; rfl)
  rw [stays]
  exact alike

theorem State.capCrankLoss_ends {r : Request} (hu : s.cap.unit = .filling) (ha : s.cap.activeRequest = some r)
    (hk : r.kind = .tooth) (started : s.cap.started = true) (t : Stamp) : s.capCrankLoss t = s.captureHeld t r .truncated := by
  unfold State.capCrankLoss
  rw [Cap.fillingAs_eq hu ha, if_pos hk]
  exact (if_pos started).trans (State.endFilling_eq ha t _)

theorem State.capCrankLoss_spares (h : ∀ r, s.cap.fillingAs .tooth = some r → s.cap.started = false) (t : Stamp) :
    s.capCrankLoss t = s := by
  unfold State.capCrankLoss
  split
  · rfl
  · next r hr => exact if_neg (by rw [h r hr]; decide)

/-- The loss events at the capture unit: the sync loss, then the crank loss. -/
theorem State.lossEvents_alike (s : State) (t : Stamp) (b : SyncState) :
    let lost := if b = .fullSync ∧ s.adec.sync ≠ .fullSync then s.syncLoss t else s
    CaptureAlike
      (if (b = .fullSync ∨ b = .crankSync) ∧ (s.adec.sync = .seek ∨ s.adec.sync = .halted) then lost.capCrankLoss t else lost)
      (s.lossEvents t b) := by
  unfold State.lossEvents
  dsimp only
  generalize (if (b = SyncState.fullSync ∨ b = .crankSync) ∧ (s.adec.sync = .seek ∨ s.adec.sync = .halted) then _ else _) = x
  by_cases h : s.adec.sync = .halted
  · rw [if_pos h]
    exact ⟨rfl, rfl, rfl, rfl⟩
  · rw [if_neg h]
    exact .refl x

/-- R165: what a TOOTH capture with room takes of an edge. -/
theorem State.toothTaken_room {r : Request} (hu : s.cap.unit = .filling) (ha : s.cap.activeRequest = some r) (hk : r.kind = .tooth)
    (room : s.cap.mem.words.length < 4096) (t : Stamp) (P : Nat) (gapEnd : Bool) :
    s.toothTaken t P gapEnd =
      if s.cap.started = false then { s with cap := { s.cap with started := gapEnd } }
      else
        let v : State :=
          { s with cap := { s.cap with mem := ⟨s.cap.mem.words ++ [BitVec.ofNat 16 (min 65535 P)]⟩
                                       recorded := s.cap.recorded + gapEnd.toNat } }
        if gapEnd = true ∧ s.cap.recorded + 1 = r.count then v.captureHeld t r .ready else v := by
  unfold State.toothTaken
  rw [ha]
  dsimp only
  rw [if_neg (by simp [hu, hk]), if_pos room]

/-- Settles O27: a sample, the notices of the knock front end, a tooth, and the loss events. -/
theorem rawSampleStored : Obligations.RawSampleStored := by
  refine ⟨fun t raw0 raw1 s k r σ h kn running due hu ha hk hw opened header => ?_, fun t s r σ hu ha hk => ?_,
    fun t c s z i v w mark => ?_, fun t e a s r running keeps he hu ha hk room => ?_, fun t before s r hu ha => ?_⟩
  · intro raw
    let v : State := { s with timebase := t, kfe := s.sampledKfe t raw0 raw1 }
    have rule := rawSample_stored t raw0 raw1 s k r σ h kn running due hu ha hk hw opened
    have stored := State.noticeSample_recorded (s := v) (w := ⟨σ, h⟩) hu ha hk hw t raw
    refine ⟨v.noticeSample t σ raw, rule.trans (by cases σ <;> rfl), ?_, fun x hx => ?_, fun space => ?_, fun full => ?_⟩
    · have frame := v.noticeSample_frame t σ raw
      rw [frame.kfe]
      exact frame.eq
    · rw [execKnockSample_due (by exact running) (by exact due), State.sample_idle fun σ =>
        Cap.recordingOn_none (Cap.fillingAs_none (fun x => UnitState.noConfusion x) _) σ] at hx
      obtain rfl := Host.Outcome.next.inj hx
      exact (v.noticeSample_frame t σ raw).kfe
    · rw [stored, if_pos space]
      exact ⟨rfl, rfl, modify_append_spec s.cap.mem.words raw _ (i := h + 2) (by omega)⟩
    · rw [stored, if_neg (by show ¬ s.cap.mem.words.length < 4096; omega)]
      refine ⟨rfl, (List.length_modify ..).trans full, List.getElem?_modify_eq .., fun i hi => List.getElem?_modify_ne _ _ hi.symm, ?_⟩
      unfold State.captureHeld captureEnded
      dsimp only
      rw [List.length_modify, hk, full]
      rfl
  · intro words closed
    refine ⟨fun n cycle g => ?_, fun h clipped noWindow hw => ?_, fun h hw => ?_, fun none b d => ?_⟩
    · rw [State.noticeOpen_spec hu ha hk]
      refine ⟨fun other => if_neg other, fun target fits => ?_, fun target full => ?_⟩
      · exact (if_pos target).trans (if_neg (Nat.not_lt.mpr fits))
      · exact (if_pos target).trans (if_pos full)
    · intro v
      have rule := State.noticeClose_spec hu ha hk hw t clipped noWindow
      exact ⟨fun last => rule.trans (if_pos last), fun more => rule.trans (if_neg more)⟩
    · have rule := State.noticeAbandon_spec hu ha hk hw t
      refine ⟨rule false, ?_⟩
      intro kept
      have test : (true && r.target.any s.cfg.active.hasCyl) = true ↔ ∃ c, r.target = some c ∧ s.cfg.active.hasCyl c = true := by
        rw [Bool.true_and, target_any]
      by_cases inList : ∃ c, r.target = some c ∧ s.cfg.active.hasCyl c = true
      · refine ⟨fun both => ?_, fun less => ?_⟩
        · exact (rule true).trans ((if_pos (test.mpr inList)).trans (if_pos both.1))
        · exact (rule true).trans ((if_pos (test.mpr inList)).trans (if_neg fun last => less ⟨last, inList⟩))
      · exact ⟨fun both => absurd both.2 inList, fun _ => (rule true).trans (if_neg fun h => inList (test.mp h))⟩
    · have idle : s.cap.recordingOn σ = .none := Cap.recordingOn_other fun w hw same =>
        none w.header (by rw [hw, ← same])
      unfold State.noticeClose State.noticeAbandon
      rw [idle]
      exact ⟨rfl, rfl⟩
  · intro row cycle g
    refine ⟨fun hv => ?_, fun k hk hw => ?_⟩
    · have opens : ∀ x : State, vget false x.smap.marks i = true → State.raise t c x ⟨z, .knockOpen, i⟩ = x.knockOpen t i cycle :=
        fun x hx => if_pos hx
      rw [opens s mark]
      rw [opens _ (by exact mark), State.knockOpen, State.noticeOpen_idle (fun x => UnitState.noConfusion x)] at hv
      rw [← hv]
      rfl
    · exact (if_pos mark : State.raise t c s ⟨z, .knockClose, i⟩ = s.knockClose t i).trans
        (State.knockClose_some rfl hk t hw)
  · intro gapEnd word v stored counted u hu'
    have taken : s.edgeTaken t a = u := by
      obtain ⟨e', gap, he', _, _, _, rfl⟩ := keeps.tooth
      obtain rfl := Option.some.inj (he.symm.trans he')
      have period : (s.adec.tooth s.cfg.active t gap).period = (t - e).toNat := (Adec.tooth_measured he s.cfg.active t gap).2.1
      unfold State.edgeTaken
      rw [State.toothTaken_room (by exact hu) (by exact ha) hk (by exact room), period]
      obtain ⟨fresh, no, rfl⟩ | ⟨fresh, yes, rfl⟩ | ⟨going, no, rfl⟩ | ⟨going, yes, more, rfl⟩ | ⟨going, yes, last, rfl⟩ := hu'
      · rw [if_pos (by exact fresh), decide_eq_false no, ← fresh]
      · rw [if_pos (by exact fresh), decide_eq_true yes]
      · rw [if_neg (by rw [going]; decide), decide_eq_false no]
        exact if_neg (fun h => absurd h.1 (by decide))
      · rw [if_neg (by rw [going]; decide), decide_eq_true yes]
        exact if_neg (fun h => more h.2)
      · rw [if_neg (by rw [going]; decide), decide_eq_true yes]
        exact if_pos ⟨rfl, last⟩
    have frame : CapFrame { s with timebase := t, adec := a } u := by
      rw [← taken]
      exact s.edgeTaken_frame t a
    obtain ⟨e', gap, he', accepted, ends, place, rfl⟩ := keeps.tooth
    obtain ⟨_, _, _, cycle, next, _⟩ := Adec.tooth_kept s.adec s.cfg.active t gap
    refine ⟨fun hs => ?_, fun hs below => ?_⟩
    · rw [exec_toothEdge_accepted running (.inl hs) he' accepted ends place, if_neg (by rw [hs]; decide), taken]
    · rw [exec_toothEdge_accepted running (.inr hs) he' accepted ends place, if_pos hs, if_neg (Nat.not_lt.mpr below), taken,
        State.reachAngle_eq, frame.cfg, show u.adec.cycle = s.adec.cycle by rw [frame.adec]; exact cycle,
        show u.adec.nextAngle = s.adec.nextAngle by rw [frame.adec]; exact next]
  · intro u ends
    have alike := s.lossEvents_alike t before
    refine ⟨fun hk full left holds => ?_, fun hk from' lost started => ?_, fun stays => ?_⟩
    · have lost := State.syncLoss_ends hu ha hk holds t
      have held : ∀ x : State, CaptureAlike (x.captureHeld t r .truncated) (s.syncLoss t) → ends x := by
        intro x hx
        have spared : (s.syncLoss t).capCrankLoss t = s.syncLoss t := State.capCrankLoss_spares (fun q hq => by
          have := (Cap.fillingAs_some hq).1
          rw [hx.cap] at this
          exact nomatch this) t
        have := alike
        dsimp only at this
        rw [if_pos (show before = .fullSync ∧ s.adec.sync ≠ .fullSync from ⟨full, left⟩), spared, ite_self] at this
        have both := hx.trans this
        exact ⟨both.cap, both.ports⟩
      refine ⟨fun none => held s ?_, fun w hw => held (s.windowClosed w.header 8#16) ?_⟩
      · rwa [State.withoutWindow, none] at lost
      · rwa [State.withoutWindow, hw] at lost
    · have spared : CaptureAlike s (if before = .fullSync ∧ s.adec.sync ≠ .fullSync then s.syncLoss t else s) := by
        split
        · exact State.syncLoss_spares hu ha (.inl hk) t
        · exact .refl s
      dsimp only at alike
      rw [if_pos ⟨from', lost⟩, State.capCrankLoss_ends (by rw [spared.cap]; exact hu) (by rw [spared.cap]; exact ha) hk
        (by rw [spared.cap]; exact started)] at alike
      have both := (spared.captureHeld t r .truncated).trans alike
      exact ⟨both.cap, both.ports⟩
    · have spared : CaptureAlike s (if before = .fullSync ∧ s.adec.sync ≠ .fullSync then s.syncLoss t else s) := by
        split
        · next h =>
          refine State.syncLoss_spares hu ha ?_ t
          obtain ⟨_, early | nothing⟩ | ⟨hk, _⟩ := stays
          · exact absurd h.1 early
          · exact .inr nothing
          · exact .inl hk
        · exact .refl s
      dsimp only at alike
      have crank : (before = .fullSync ∨ before = .crankSync) ∧ (s.adec.sync = .seek ∨ s.adec.sync = .halted) →
          ∀ q, s.cap.fillingAs .tooth = some q → s.cap.started = false := by
        intro h q hq
        rw [Cap.fillingAs_eq hu ha] at hq
        obtain ⟨hk, _⟩ | ⟨_, fresh | going⟩ := stays
        · rw [if_neg (by rw [hk]; decide)] at hq
          exact nomatch hq
        · exact fresh
        · rw [going] at h
          exact absurd h.2 (by decide)
      generalize (if before = .fullSync ∧ s.adec.sync ≠ .fullSync then s.syncLoss t else s) = x at spared alike
      have last : CaptureAlike s
          (if (before = .fullSync ∨ before = .crankSync) ∧ (s.adec.sync = .seek ∨ s.adec.sync = .halted) then x.capCrankLoss t else x) := by
        split
        · next h =>
          rw [State.capCrankLoss_spares (by rw [spared.cap]; exact crank h)]
          exact spared
        · exact spared
      have both := last.trans alike
      exact ⟨both.cap, both.ports⟩

end Sys2Proof.Machine
end

section
/-! PROOFS. Requests at the link, and the decoder (sections 11.1, 11.2 and 11.5), the record queues (chapter 8): O35, O36, O38, O39,
O52. -/

namespace Sys2Proof.Machine

variable {s u v : State}

/-! ### Requests that are refused (R185) -/

/-- A payload of another length than the command's own. -/
theorem request_wrongLength {p : Port} (h : s.ready p) {pl : List Byte} (small : pl.length ≤ 250) (t : Stamp) (n : Nat)
    (serve : State → State × Response) (hn : pl.length ≠ n) :
    Host.Outcome.next (takeRequest t p (ofLength n pl serve) s) =
      (.next (s.answered p t ⟨.badLength, []⟩) : Host.Outcome State Fault Refusal) :=
  congrArg _ (takeRequest_refused h (congrFun (ofLength_wrong hn small _) _))

/-- Settles O35: the length test of each command comes before its serving. -/
theorem refusedRequests : Obligations.RefusedRequests := by
  intro t p s pl ready small wrong
  have short := request_wrongLength ready small t
  refine ⟨fun _ => congrArg _ (takeRequest_refused ready rfl), fun _ => congrArg _ (takeRequest_refused ready rfl), ?_⟩
  exact ⟨short 0 _, short 0 _, short 1 _, short 1 _, short 0 _, short 0 _, short 5 _, short 3 _, short 3 _, short 0 _, short 0 _,
    short 0 _, short 0 _, short 1 _, short 1 _, short 0 _, short 4 _, short 1 _, short 0 _, short 5 _, short 0 _, short 4 _,
    short 1 _, short 1 _, short 0 _, short 5 _, short 6 _, short 1 _, short 1 _, short 0 _, short 1 _⟩

/-! ### Selections (R184, R186, R190) -/

/-- Every request of a port is taken by the one rule of the link, whatever it asks for. -/
theorem exec_request {c : Instr} {t : Stamp} {p : Port} {bytes : List Byte} (h : requestFrame c = some (t, p, bytes)) :
    ∃ serve : State → State × Response, ∀ s, exec c s = .next (takeRequest t p serve s) := by
  cases c <;> cases h <;> exact ⟨_, fun _ => rfl⟩

theorem State.notReady_iff (s : State) (p : Port) : s.notReady p = true ↔ s.startUp = true ∨ (s.ports.get p).busy = true :=
  Iff.of_eq (Bool.or_eq_true _ _)

/-- Settles O36: the start of a selection by its tests, and the requests that are not taken. -/
theorem selections : Obligations.Selections := by
  refine ⟨fun t p s h => ?_, fun c t p bytes s frame h => ?_⟩
  · intro x
    have start : exec (.selectionStart t p) s =
        .next (if x.selection = .idle then (s.setTimebase t).select p else s.setTimebase t) := congrArg _ (onEvent_running h t _)
    have notReady := State.notReady_iff (s.setTimebase t) p
    refine ⟨fun idle early => ?_, fun idle started free => ?_, fun selected => ?_, ?_⟩
    · rw [start, if_pos idle, State.select, if_pos (notReady.mpr early), State.setPort_eq]
      rfl
    · have ready : ¬ (s.setTimebase t).notReady p = true := by
        rw [notReady, not_or, Bool.not_eq_true, Bool.not_eq_true]
        exact ⟨started, free⟩
      rw [start, if_pos idle, State.select, if_neg ready, State.setPort_eq]
      rfl
    · rw [start, if_neg selected]
      rfl
    · show execProcessingDone t p s = _
      rw [execProcessingDone, onEvent_running h, State.setPort_eq]
      rfl
  · obtain ⟨serve, rule⟩ := exec_request frame
    rw [rule, takeRequest, onEvent_running h]
    refine ⟨fun refused => ?_, fun idle => ?_⟩
    · rw [show ((s.setTimebase t).port p).selection = .refused from refused]
      dsimp only
      rw [State.endSelection, State.setPort_eq]
      rfl
    · rw [show ((s.setTimebase t).port p).selection = .idle from idle]
      rfl

/-! ### The record queues (R149, R150) -/

/-- Settles O38: the port's new subscription, format and watermark, and the two refusals. -/
theorem subscribe : Obligations.Subscribe := by
  intro t p hi lo f w s ready
  refine ⟨fun mask format => ⟨_, ?_, rfl⟩, fun bad => ?_⟩
  · have kinds : kindMask (u16 [hi, lo, f, w] 0) = some (BitVec.ofNat 10 (hi.toNat * 256 + lo.toNat)) := if_pos mask
    have form : formatOfCode (u8 [hi, lo, f, w] 2) = some (if f.toNat = 0 then .compact else .full) := by
      show formatOfCode f.toNat = _
      obtain zero | one : f.toNat = 0 ∨ f.toNat = 1 := by omega
      · rw [zero]
        rfl
      · rw [one]
        rfl
    have served : serveSubscribe p [hi, lo, f, w] (s.taken p t) =
        ((s.taken p t).setPort p
          { (s.taken p t).port p with
            subscription := BitVec.ofNat 10 (hi.toNat * 256 + lo.toNat), format := if f.toNat = 0 then .compact else .full
            watermark := min 128 w.toNat },
         ⟨.ok, [BitVec.ofNat 8 (min 128 w.toNat), BitVec.ofNat 8 (s.ports.get p).queue.length]⟩) := by
      unfold serveSubscribe
      rw [kinds, form, State.port_taken]
      rfl
    show execSubscribe t p [hi, lo, f, w] s = _
    rw [execSubscribe, ofLength_exact (n := 4) rfl (by decide), takeRequest_ownPort ready served, State.port_taken]
    rfl
  · have refused : serveSubscribe p [hi, lo, f, w] (s.taken p t) = refuse .badValue (s.taken p t) := by
      unfold serveSubscribe
      obtain kinds | form := bad
      · rw [show kindMask (u16 [hi, lo, f, w] 0) = none from if_neg (Nat.not_lt.mpr kinds)]
      · rw [show formatOfCode (u8 [hi, lo, f, w] 2) = none from ?_]
        · cases kindMask (u16 [hi, lo, f, w] 0) <;> rfl
        · show formatOfCode f.toNat = none
          unfold formatOfCode
          split
          · omega
          · omega
          · rfl
    show execSubscribe t p [hi, lo, f, w] s = _
    rw [execSubscribe, request_refused ready (n := 4) rfl (by decide) refused]

theorem beBytes_two (n : Nat) : beBytes 2 n = [BitVec.ofNat 8 (n / 256), BitVec.ofNat 8 n] := by
  simp [beBytes]

/-- Settles O39: the records taken are the first of the queue, and the two refusals. -/
theorem fetchRecords : Obligations.FetchRecords := by
  intro t p n s ready x
  have rule : exec (.fetchRecords t p [n]) s = .next (takeRequest t p (serveFetchRecords p [n]) s) := by
    show execFetchRecords t p [n] s = _
    rw [execFetchRecords, ofLength_exact (n := 1) rfl (by decide)]
  have queue : ((s.taken p t).port p).queue = x.queue := by
    rw [State.port_taken]
    rfl
  refine ⟨fun zero => ?_, fun some empty => ?_, fun some full => ?_⟩
  · rw [rule, takeRequest_refused ready (if_pos (by exact zero))]
  · have refused : serveFetchRecords p [n] (s.taken p t) = refuse .empty (s.taken p t) := by
      refine (if_neg (by exact some)).trans (if_pos ?_)
      show ((s.taken p t).port p).queue.isEmpty = true
      rw [queue, empty]
      rfl
    rw [rule, takeRequest_refused ready refused]
  · let r := x.fetchCount n.toNat
    have most : x.format.perFrame = if x.format = .full then 10 else 20 := by cases x.format <;> rfl
    have code : x.format.code = if x.format = .full then 1 else 0 := by cases x.format <;> rfl
    have length : (x.queue.take r).length = min n.toNat (min x.queue.length (if x.format = .full then 10 else 20)) := by
      show (x.queue.take (min n.toNat (min x.queue.length x.format.perFrame))).length = _
      rw [List.length_take, most]
      omega
    have served : serveFetchRecords p [n] (s.taken p t) =
        ((s.taken p t).setPort p { (s.taken p t).port p with queue := x.queue.drop r },
          okWith ([byte x.format.code, byte r, byte (x.queue.length - r)] ++ beBytes 2 x.dropped ++
            (x.queue.take r).flatMap fun rec => rec.bytes x.format)) := by
      refine (if_neg (by exact some)).trans ((if_neg ?_).trans ?_)
      · show ¬ ((s.taken p t).port p).queue.isEmpty = true
        rw [queue, List.isEmpty_iff]
        exact full
      · rw [State.port_taken]
        rfl
    refine ⟨x.queue.take r, x.queue.drop r, List.take_append_drop .., length, ?_⟩
    rw [rule, takeRequest_ownPort ready served, State.port_taken, ← code]
    have counted : (x.queue.take r).length = r := by
      rw [length, ← most]
      rfl
    rw [counted, List.length_drop, List.flatMap_def, beBytes_two]
    rfl

/-! ### Frames (section 11.1, R185) -/

theorem byteSum_append (l m : List Byte) : byteSum (l ++ m) = byteSum l + byteSum m := by
  induction l with
  | nil => exact (BitVec.zero_add _).symm
  | cons b bs ih => rw [List.cons_append, byteSum, byteSum, ih, BitVec.add_assoc]

/-- The check byte brings the sum of a frame to 0. -/
theorem byteSum_sealFrame (body : List Byte) : byteSum (sealFrame body) = 0 := by
  rw [sealFrame, byteSum_append, byteSum, byteSum]
  simp

/-- The frame of a code and a payload passes the frame tests and is taken whole. -/
theorem requestCommand_frameBytes {pl : List Byte} (small : pl.length ≤ 250) (t : Stamp) (p : Port) (code : Byte) :
    requestCommand t p (frameBytes code pl) = commandOfCode t p code pl := by
  have frame : frameBytes code pl =
      code :: BitVec.ofNat 8 pl.length :: (pl ++ [0 - byteSum (code :: BitVec.ofNat 8 pl.length :: pl)]) := rfl
  have len : (BitVec.ofNat 8 pl.length).toNat = pl.length := by
    rw [BitVec.toNat_ofNat]
    omega
  have complete : frameTruncated (frameBytes code pl) = false := by
    rw [frame, frameTruncated, len, List.length_append, Bool.or_eq_false_iff, decide_eq_false_iff_not, decide_eq_false_iff_not]
    exact ⟨Nat.not_lt.mpr small, Nat.lt_irrefl _⟩
  have whole : frameBody (frameBytes code pl) = frameBytes code pl := by
    rw [frame, frameBody, len, List.take_of_length_le (by rw [List.length_append]; exact Nat.le_refl _)]
  have fine : frameBad (frameBytes code pl) = false := by
    have sum : byteSum (frameBytes code pl) = 0 := byteSum_sealFrame _
    rw [frameBad, complete, frameSumWrong, whole, sum]
    rfl
  unfold requestCommand
  rw [fine, frame]
  dsimp only
  rw [if_neg (by decide), len, List.take_left]

/-- R185, test 3: a code that is not in the table. -/
theorem commandOfCode_unknown {code : Byte} (h : knownCode code = false) (t : Stamp) (p : Port) (pl : List Byte) :
    commandOfCode t p code pl = .unknownCommand t p code pl := by
  have unknown : ∀ n ∈ commandCodes, code.toNat ≠ n := by
    rintro n hn rfl
    rw [knownCode, List.contains_iff_mem.mpr hn] at h
    exact absurd h (by decide)
  unfold commandOfCode
  split
  case h_32 => rfl
  all_goals next h => exact absurd h (unknown _ (by decide))

/-- Settles O52: every command's frame by its code. -/
theorem requestFramesDecode : Obligations.RequestFramesDecode := by
  intro c t p bytes well frame
  have taken : ∀ {code : Byte} {pl : List Byte}, payloadFits pl = true →
      requestCommand t p (frameBytes code pl) = commandOfCode t p code pl :=
    fun fits => requestCommand_frameBytes (of_decide_eq_true fits) t p _
  cases c
  case badFrame =>
    cases frame
    exact if_pos well
  case unknownCommand =>
    cases frame
    obtain ⟨unknown, fits⟩ := Bool.and_eq_true_iff.mp well
    exact (taken fits).trans (commandOfCode_unknown (by simpa using unknown) _ _ _)
  all_goals
    cases frame
  all_goals exact taken well

end Sys2Proof.Machine
end

section
/-! PROOFS. The bytes of records and of the reading commands (chapters 1 to 11): O37, O34. -/

namespace Sys2Proof.Machine

variable {s u v : State}

/-! ### Fields and bytes -/

theorem layout_nil : layout [] = [] := rfl

/-- The bytes of a number, most significant first, as a field lists them. -/
theorem beBytes_eq (n v : Nat) : beBytes n v = (List.range n).map fun i => BitVec.ofNat 8 (v / 256 ^ (n - 1 - i)) := by
  induction n with
  | zero => rfl
  | succ k ih =>
    rw [beBytes, ih, List.range_succ_eq_map, List.map_cons, List.map_map]
    refine congrArg₂ _ rfl (List.map_congr_left fun i _ => ?_)
    show _ = BitVec.ofNat 8 (v / 256 ^ (k + 1 - 1 - (i + 1)))
    rw [show k + 1 - 1 - (i + 1) = k - 1 - i by omega]

theorem beBytes_one (v : Nat) : beBytes 1 v = [byte v] := by simp [beBytes, byte]

theorem layout_cons (n v : Nat) (l : List (Nat × Nat)) : layout ((n, v) :: l) = beBytes n v ++ layout l := by
  rw [beBytes_eq]
  rfl

theorem layout_append (l m : List (Nat × Nat)) : layout (l ++ m) = layout l ++ layout m := List.flatMap_append

theorem layout_flatMap {α : Type} (l : List α) (f : α → List (Nat × Nat)) :
    layout (l.flatMap f) = l.flatMap fun x => layout (f x) := List.flatMap_assoc

theorem layout_map {α : Type} (l : List α) (f : α → Nat × Nat) :
    layout (l.map f) = l.flatMap fun x => beBytes (f x).1 (f x).2 := by
  induction l with
  | nil => rfl
  | cons x xs ih => rw [List.map_cons, layout_cons, ih, List.flatMap_cons]

/-- A number beyond 2 bytes is sent by its lower 2 bytes. -/
theorem beBytes_two_mod (n : Nat) : beBytes 2 (n % 65536) = beBytes 2 n := by
  have high : BitVec.ofNat 8 (n % 65536 / 256) = BitVec.ofNat 8 (n / 256) := BitVec.eq_of_toNat_eq (by
    rw [BitVec.toNat_ofNat, BitVec.toNat_ofNat]
    omega)
  have low : BitVec.ofNat 8 (n % 65536) = BitVec.ofNat 8 n := BitVec.eq_of_toNat_eq (by
    rw [BitVec.toNat_ofNat, BitVec.toNat_ofNat]
    omega)
  rw [beBytes_two, beBytes_two, high, low]

theorem signed16_eq (d : Int) : signed16 d = twos d := BitVec.toNat_ofInt ..

/-! ### Records (R145 to R148) -/

theorem padTo_length {n : Nat} {l : List Byte} (h : l.length ≤ n) : (padTo n l).length = n := by
  rw [padTo, List.length_append, List.length_replicate]
  omega

theorem Record.bytes_length (r : Record) : (r.bytes .full).length = 24 ∧ (r.bytes .compact).length = 12 := by
  have head : r.head.length = 3 := by rw [Record.head, List.length_cons, beBytes_length]
  have full : r.body.fullFields.length ≤ 17 := by
    cases r.body <;> simp [RecordBody.fullFields, beBytes_length]
  have compact : r.body.compactFields.length ≤ 9 := by
    cases r.body <;> simp [RecordBody.compactFields, RecordBody.fullFields, beBytes_length]
  constructor
  · refine padTo_length ?_
    rw [List.length_append, List.length_append, head, beBytes_length]
    omega
  · refine padTo_length ?_
    rw [List.length_append, head]
    omega

/-- A record's bytes from the fields of its kind. -/
theorem Record.bytes_layout {r : Record} {kind set : Nat} {full compact : List (Nat × Nat)} (hk : r.body.kindCode = kind)
    (hs : r.body.setBit = set) (hf : r.body.fullFields = layout full) (hc : r.body.compactFields = layout compact) :
    let head : List (Nat × Nat) := [(1, kind * 16 + set * 8 + r.cyl.elim 0 cylNumber), (2, r.cycle.toNat)]
    r.bytes .full = padTo 24 (layout (head ++ [(4, r.stamp.toNat)] ++ full)) ∧
      r.bytes .compact = padTo 12 (layout (head ++ compact)) := by
  intro head
  have first : r.head = layout head := by
    rw [Record.head, hk, hs, layout_cons, layout_cons, beBytes_one]
    simp [layout_nil]
  have stamp : layout [(4, r.stamp.toNat)] = beBytes 4 r.stamp.toNat := by rw [layout_cons, layout_nil, List.append_nil]
  rw [layout_append, layout_append, layout_append, ← first, stamp, ← hf, ← hc]
  exact ⟨rfl, rfl⟩

/-- The joined misfire code (R147). -/
theorem misfireCode_table {m : MisfireJudged} {mc : Nat}
    (h : (m.verdict, m.reason, mc) ∈
      [(MisfireVerdict.notAssessed, some MisfireReason.warmup, 0), (.notAssessed, some .lowSpeed, 1), (.notAssessed, some .overspeed, 2),
       (.noMisfire, none, 3), (.misfire, none, 4), (.rough, none, 5), (.cut, some .spark, 6), (.cut, some .fuel, 6),
       (.neighborCut, none, 7)]) : misfireCode m = mc := by
  unfold misfireCode
  simp only [List.mem_cons, Prod.mk.injEq, List.not_mem_nil, or_false] at h
  obtain ⟨hv, hr, rfl⟩ | ⟨hv, hr, rfl⟩ | ⟨hv, hr, rfl⟩ | ⟨hv, hr, rfl⟩ | ⟨hv, hr, rfl⟩ | ⟨hv, hr, rfl⟩ | ⟨hv, hr, rfl⟩ | ⟨hv, hr, rfl⟩ |
    ⟨hv, hr, rfl⟩ := h
  all_goals rw [hv, hr]

/-- The joined knock code (R147). -/
theorem knockCode_table {k : KnockJudged} {kc : Nat}
    (h : (k.verdict, k.reason, kc) ∈
      [(KnockVerdict.notAssessed, some KnockReason.overspeed, 1), (.notAssessed, some .cut, 2), (.clean, none, 3), (.knock, none, 4),
       (.noise, none, 5), (.clipped, none, 6), (.noWindow, none, 7)]) : knockCode k = kc := by
  unfold knockCode
  simp only [List.mem_cons, Prod.mk.injEq, List.not_mem_nil, or_false] at h
  obtain ⟨hv, hr, rfl⟩ | ⟨hv, hr, rfl⟩ | ⟨hv, hr, rfl⟩ | ⟨hv, hr, rfl⟩ | ⟨hv, hr, rfl⟩ | ⟨hv, hr, rfl⟩ | ⟨hv, hr, rfl⟩ := h
  all_goals rw [hv, hr]
  all_goals rfl

/-- Settles O37: the offer, the lengths, and the fields of each kind. -/
theorem recordOffer : Obligations.RecordOffer := by
  refine ⟨emit_offered, fun s p r => ?_, Record.bytes_length, by decide, by decide, fun cyl cycle t => ?_, by decide⟩
  · rw [State.emitTo, PortState.offer_eq, State.setPort_eq]
    rfl
  · intro padded sent both
    have kind : ∀ {body : RecordBody} {k set : Nat} {full compact : List (Nat × Nat)}, body.kindCode = k → body.setBit = set →
        body.fullFields = layout full → body.compactFields = layout compact → sent body k set full compact :=
      fun {body k set full compact} hk hs hf hc => ⟨hk, Record.bytes_layout (r := ⟨cyl, cycle, t, body⟩) hk hs hf hc⟩
    have cause01 : ∀ c : GainCause, (if c = .clip then 0 else 1) = match c with | .clip => 0 | .low => 1 := by
      intro c
      cases c <;> rfl
    refine ⟨fun row retard recovery mc kc m k sp set stale hm hk => ?_, fun d limit cons set stale => ?_, fun cons limit => ?_,
      fun count length => ?_, fun k inorm retard step set => ?_, fun σ q gn => ?_, fun σ row old new cause => ?_,
      fun state cause polarity => ?_, fun handle words o ck => ?_, fun generation p cls => ?_⟩
    · intro d limit w K Q spark
      have hd : m.dBytes = d := by
        show signed16 _ = _
        rw [signed16_eq]
        simp only [d]
        cases m.index <;> rfl
      have hl : m.limitNum = limit := by simp only [limit, MisfireJudged.limitNum]; cases m.index <;> rfl
      have hw : m.wNum = w := by simp only [w, MisfireJudged.wNum]; cases m.index <;> rfl
      have hsp : sparkCode sp.angle = spark := by simp only [spark]; cases sp.angle <;> rfl
      refine kind rfl rfl ?_ ?_
      · simp only [RecordBody.fullFields, misfireCode_table hm, knockCode_table hk, hd, hl, hw, hsp, layout_cons, layout_nil, beBytes_one,
          List.append_assoc, List.append_nil]
        rfl
      · simp only [RecordBody.compactFields, misfireCode_table hm, knockCode_table hk, hd, hl, layout_cons, layout_nil, beBytes_one,
          List.append_assoc, List.append_nil]
        rfl
    all_goals
      refine kind rfl rfl ?_ ?_ <;>
        simp only [RecordBody.fullFields, RecordBody.compactFields, signed16_eq, cause01, layout_cons, layout_nil, beBytes_one,
          beBytes_two_mod,          List.append_assoc, List.append_nil] <;> rfl

end Sys2Proof.Machine
end

section
/-! PROOFS. The reading commands (chapters 1 to 11): O34. -/

namespace Sys2Proof.Machine

variable {s u v : State}

/-! ### The lengths of the answers -/

theorem statusPayload_length (p : Port) (s : State) : (statusPayload p s).length = 16 := by simp [statusPayload]

theorem anglePayload_length (s : State) : (anglePayload s).length = 32 := by simp [anglePayload, stampBytes]

theorem declBytes_length (now : Stamp) (d : Option Declaration) : (declBytes now d).length = 5 := by
  cases d <;> simp [declBytes]

theorem opstatePayload_length (s : State) : (opstatePayload s).length = 27 := by simp [opstatePayload, stampBytes, declBytes_length]

theorem misfirePayload_length (s : State) : (misfirePayload s).length = 52 := by
  simp [misfirePayload, stampBytes, PerCyl.toList, List.length_flatMap]

theorem knockFrontPayload_length (s : State) : (knockFrontPayload s).length = 34 := by
  simp [knockFrontPayload, stampBytes, chainBytes, List.length_flatMap]

theorem knockStatePayload_length (s : State) : (knockStatePayload s).length = 51 := by
  simp [knockStatePayload, stampBytes, PerCyl.toList]

theorem length_flatMap_const {α β : Type} {f : α → List β} {n : Nat} (h : ∀ x, (f x).length = n) (l : List α) :
    (l.flatMap f).length = n * l.length := by
  induction l with
  | nil => rfl
  | cons x xs ih =>
    rw [List.flatMap_cons, List.length_append, ih, h, List.length_cons, Nat.mul_succ, Nat.add_comm]

theorem layout_length (l : List (Nat × Nat)) : (layout l).length = (l.map Prod.fst).sum := by
  induction l with
  | nil => rfl
  | cons x xs ih => rw [layout_cons, List.length_append, beBytes_length, ih, List.map_cons, List.sum_cons]

theorem bits_eq (l : List Bool) : bits l = bitsNum l := by
  induction l with
  | nil => rfl
  | cons b bs ih => rw [bitsNum, ← ih]; rfl

theorem orZero_eq (o : Option Nat) : orZero o = o.getD 0 := by cases o <;> rfl

theorem entryBytes_layout (e : Entry) : entryBytes e = layout (entryFields e) := by
  unfold entryBytes entryFields
  cases e.misfire.index <;>
    simp only [layout_cons, layout_nil, beBytes_one, flagByte, bits_eq, signed16_eq, orZero_eq, List.cons_append, List.nil_append,
      List.append_assoc, List.append_nil, Option.elim_none, Option.elim_some,
      show twos 0 = 0 from rfl]

theorem entryBytes_length (e : Entry) : (entryBytes e).length = 40 := by
  have widths : (entryFields e).map Prod.fst = [1, 1, 2, 1, 2, 2, 2, 1, 2, 1, 2, 3, 1, 1, 2, 3, 1, 1, 2, 1, 2, 2, 2, 2] := rfl
  rw [entryBytes_layout, layout_length, widths]
  rfl

theorem tablePayload_length (s : State) : (tablePayload s).length = 245 := by
  rw [tablePayload, List.length_append, List.length_append, length_flatMap_const entryBytes_length, stampBytes, beBytes_length]
  rfl

theorem captureStatusPayload_length (s : State) : (captureStatusPayload s).length = 13 + 8 * s.cap.requests.length := by
  unfold captureStatusPayload
  rw [List.length_append, length_flatMap_const (n := 8) (f := Request.bytes) (fun _ => rfl)]
  simp

theorem rowBytes_length (img : Image) (r : Nat) : (rowBytes img r).length = 12 := by simp [rowBytes]

theorem rowsPayload_length (i : Nat) (img : Image) (cursor : Option Nat) (first count : Nat) :
    (rowsPayload i img cursor first count).length = 7 + 12 * count := by
  rw [rowsPayload, List.length_append, length_flatMap_const (fun k => rowBytes_length img (first + k)), List.length_range]
  rfl

theorem imageSection_length (img : Image) {sec : Nat} (h : sec ≤ 4) :
    ∃ bs, imageSection img sec = some bs ∧ bs.length = if sec = 0 then 132 else if sec ≤ 2 then 128 else 32 := by
  have bytes : ∀ {n : Nat} (w : Nat) (l : Vector Nat n), (l.toList.flatMap (beBytes w)).length = w * n := by
    intro n w l
    rw [length_flatMap_const (beBytes_length w), Vector.length_toList]
  obtain rfl | rfl | rfl | rfl | rfl : sec = 0 ∨ sec = 1 ∨ sec = 2 ∨ sec = 3 ∨ sec = 4 := by omega
  · exact ⟨_, rfl, bytes 4 img.items⟩
  · exact ⟨_, rfl, bytes 2 img.misfireA⟩
  · exact ⟨_, rfl, bytes 2 img.misfireB⟩
  · exact ⟨_, rfl, bytes 2 img.knockA⟩
  · exact ⟨_, rfl, bytes 2 img.knockB⟩

theorem imageHeader_length (c : Cfg) (image sec : Nat) : (imageHeader c image sec).length = 10 := by simp [imageHeader]

/-! ### Reads -/

/-- A command without payload that only reads answers what it forms from the state that has taken it. -/
theorem exec_reading {p : Port} (h : s.ready p) (t : Stamp) (form : State → List Byte) :
    Host.Outcome.next (takeRequest t p (ofLength 0 [] (reading form)) s) =
      (.next (s.answered p t ⟨.ok, form (s.taken p t)⟩) : Host.Outcome State Fault Refusal) := by
  rw [request_served h (n := 0) rfl (by decide)]
  rfl

/-- The answer of a read as the fields of its table. -/
theorem answered_layout {c : Instr} {p : Port} {t : Stamp} {pl : List Byte} {fields : List (Nat × Nat)}
    (h : exec c s = .next (s.answered p t ⟨.ok, pl⟩)) (hf : pl = layout fields) :
    exec c s = .next (s.answered p t ⟨.ok, layout fields⟩) := by
  rw [h, hf]

theorem rowBytes_layout (img : Image) (r : Nat) : rowBytes img r = layout (rowFields img r) := by
  have inRun : img.inRun r = decide (img.runStart ≤ r ∧ r ≤ img.runEnd) := (Bool.decide_and _ _).symm
  simp only [rowBytes, rowFields, layout_cons, layout_nil, beBytes_one, bits_eq, inRun, List.append_assoc, List.append_nil]
  rfl

/-- The values of a table in order of their place. -/
theorem vector_bytes {n : Nat} (w : Nat) (l : Vector Nat n) :
    l.toList.flatMap (beBytes w) = layout ((List.range n).map fun i => (w, vget 0 l i)) := by
  have list : l.toList = (List.range n).map fun i => vget 0 l i := by
    refine List.ext_getElem (by simp) fun i h _ => ?_
    rw [Vector.length_toList] at h
    simp [vget, h]
  rw [layout_map, list, List.flatMap_map]

theorem imageSection_layout (img : Image) {sec : Nat} (h : sec ≤ 4) : imageSection img sec = some (layout (sectionFields img sec)) := by
  obtain rfl | rfl | rfl | rfl | rfl : sec = 0 ∨ sec = 1 ∨ sec = 2 ∨ sec = 3 ∨ sec = 4 := by omega
  · exact congrArg some (vector_bytes 4 img.items)
  · exact congrArg some (vector_bytes 2 img.misfireA)
  · exact congrArg some (vector_bytes 2 img.misfireB)
  · exact congrArg some (vector_bytes 2 img.knockA)
  · exact congrArg some (vector_bytes 2 img.knockB)

theorem exec_readCylinder {p : Port} (h : s.ready p) (t : Stamp) {b : Byte} {n : Cyl} (hn : cylNumber n = b.toNat) :
    exec (.readCylinder t p [b]) s =
      .next (s.answered p t ⟨.ok, [byte (cylNumber n)] ++ beBytes 4 t.toNat ++ entryBytes (s.cyt.entry.get n)⟩) := by
  have cyl : cylOfNumber (u8 [b] 0) = some n := by
    show cylOfNumber b.toNat = _
    rw [← hn, cylOfNumber_cylNumber]
  show execReadCylinder t p [b] s = _
  rw [execReadCylinder, request_served h (n := 1) rfl (by decide)]
  unfold serveReadCylinder
  rw [cyl]
  rfl

theorem cylNumber_exists {b : Nat} (low : 1 ≤ b) (high : b ≤ 6) : ∃ n : Cyl, cylNumber n = b := by
  obtain rfl | rfl | rfl | rfl | rfl | rfl : b = 1 ∨ b = 2 ∨ b = 3 ∨ b = 4 ∨ b = 5 ∨ b = 6 := by omega
  · exact ⟨.c1, rfl⟩
  · exact ⟨.c2, rfl⟩
  · exact ⟨.c3, rfl⟩
  · exact ⟨.c4, rfl⟩
  · exact ⟨.c5, rfl⟩
  · exact ⟨.c6, rfl⟩

theorem exec_readRows {p : Port} (h : s.ready p) (t : Stamp) {image first count : Byte} (hi : image.toNat ≤ 1) (hf : first.toNat ≤ 11)
    (hc : 1 ≤ count.toNat) (fits : first.toNat + count.toNat ≤ 12) :
    exec (.readRows t p [image, first, count]) s =
      .next (s.answered p t ⟨.ok, rowsPayload image.toNat (if image.toNat = 0 then s.cfg.active else s.cfg.staged) s.smap.cursor
        first.toNat count.toNat⟩) := by
  have valid : ¬ (1 < image.toNat ∨ 11 < first.toNat ∨ count.toNat = 0 ∨ 12 < first.toNat + count.toNat) := by omega
  show execReadRows t p [image, first, count] s = _
  rw [execReadRows, request_served h (n := 3) rfl (by decide)]
  unfold serveReadRows
  rw [if_neg (by exact valid)]
  rfl

/-- R178: a section of an image, behind the header. -/
theorem exec_readImage {p : Port} (h : s.ready p) (t : Stamp) (image : Nat) (pick : Cfg → Image) {sec : Byte} (hs : sec.toNat ≤ 4) :
    (.next (takeRequest t p (ofLength 1 [sec] (serveReadImage image pick [sec])) s) : Host.Outcome State Fault Refusal) =
      .next (s.answered p t
        ⟨.ok, imageHeader s.cfg image sec.toNat ++ layout (sectionFields (pick s.cfg) sec.toNat)⟩) := by
  rw [request_served h (n := 1) rfl (by decide)]
  unfold serveReadImage
  rw [show imageSection (pick (s.taken p t).cfg) (u8 [sec] 0) = _ from imageSection_layout (pick s.cfg) hs]
  rfl

theorem exec_readImage_beyond {p : Port} (h : s.ready p) (t : Stamp) (image : Nat) (pick : Cfg → Image) {sec : Byte}
    (hs : 4 < sec.toNat) :
    (.next (takeRequest t p (ofLength 1 [sec] (serveReadImage image pick [sec])) s) : Host.Outcome State Fault Refusal) =
      .next (s.answered p t ⟨.badValue, []⟩) := by
  have none : ∀ img, imageSection img sec.toNat = .none := by
    intro img
    unfold imageSection
    split <;> [omega; omega; omega; omega; omega; rfl]
  refine congrArg _ (request_refused h (n := 1) rfl (by decide) ?_)
  unfold serveReadImage
  rw [show imageSection (pick (s.taken p t).cfg) (u8 [sec] 0) = .none from none _]

theorem sectionFields_length (img : Image) {sec : Nat} (h : sec ≤ 4) :
    (layout (sectionFields img sec)).length = if sec = 0 then 132 else if sec ≤ 2 then 128 else 32 := by
  obtain ⟨bs, e, hl⟩ := imageSection_length img h
  rw [imageSection_layout img h] at e
  rw [Option.some.inj e, hl]

/-- R178: the header's fields. -/
theorem imageHeader_layout (c : Cfg) (image sec : Nat) :
    imageHeader c image sec = layout
      [(1, image), (1, sec), (4, c.generation.toNat),
       (1, bits [c.dirty, c.pendingCommit.isSome, c.pendingCommit.any fun k => decide (k.timing = .atCycle)]),
       (1, portCodeOrNone c.lastStaging), (1, c.pendingCommit.elim 3 fun k => k.cls.code),
       (1, portCodeOrNone (c.pendingCommit.map (·.port)))] := by
  simp only [imageHeader, layout_cons, layout_nil, beBytes_one, flagByte, bits_eq, List.cons_append, List.nil_append, List.append_nil]

/-- R172: the fields of a request of the list. -/
theorem Request.bytes_layout (r : Request) :
    r.bytes = layout [(1, r.handle), (1, portCode r.port), (1, r.state.code), (1, r.kind.code + 2 * r.mode.code),
      (1, r.target.elim 0 cylNumber), (1, r.count), (1, r.named.toNat), (1, r.latched.toNat)] := by
  simp only [Request.bytes, layout_cons, layout_nil, beBytes_one, List.cons_append, List.nil_append]
  rw [byte, byte, byte, byte, byte, byte, byte, byte, BitVec.ofNat_toNat, BitVec.ofNat_toNat, BitVec.setWidth_eq, BitVec.setWidth_eq]

/-- R56: the fields of a declaration slot. -/
theorem declBytes_layout (now : Stamp) (o : Option Declaration) :
    declBytes now o = layout (match o with
      | some d => [(1, 1), (1, bits [d.antiLag]), (1, d.band), (2, (d.duration - (now - d.start).toNat) / 2000)]
      | none => [(1, 0), (1, 0), (1, 0), (2, 0)]) := by
  cases o with
  | none => rfl
  | some d =>
    simp only [declBytes, layout_cons, layout_nil, beBytes_one, flagByte, bits_eq, List.cons_append, List.nil_append, List.append_nil]
    rfl

/-- Settles O34: each read's payload as its table of fields, with its length. -/
theorem readsChangeNothing : Obligations.ReadsChangeNothing := by
  refine ⟨fun t p s ready => ?_, fun t p s ready => ?_, by decide⟩
  · intro reads refused
    refine ⟨⟨_, rfl, exec_reading ready t _⟩, ⟨_, statusPayload_length _ _, exec_reading ready t _⟩,
      ⟨_, anglePayload_length _, exec_reading ready t _⟩, ⟨_, opstatePayload_length _, exec_reading ready t _⟩,
      ⟨_, misfirePayload_length _, exec_reading ready t _⟩, ⟨_, knockFrontPayload_length _, exec_reading ready t _⟩,
      ⟨_, knockStatePayload_length _, exec_reading ready t _⟩, ⟨_, tablePayload_length _, exec_reading ready t _⟩,
      ⟨_, captureStatusPayload_length (s.taken p t), exec_reading ready t _⟩, fun c low high => ?_, fun c bad => ?_,
      fun image first count hi hf hc fits => ⟨_, rowsPayload_length _ _ _ _ _, exec_readRows ready t hi hf hc fits⟩,
      fun image first count bad => ?_, fun sec hs => ?_,
      fun sec hs => ⟨exec_readImage_beyond ready t 0 _ hs, exec_readImage_beyond ready t 1 _ hs⟩⟩
    · obtain ⟨n, hn⟩ := cylNumber_exists low high
      refine ⟨_, ?_, exec_readCylinder ready t hn⟩
      rw [List.length_append, List.length_append, entryBytes_length, beBytes_length]
      rfl
    · have none : cylOfNumber (u8 [c] 0) = .none := cylOfNumber_none.mpr bad
      show execReadCylinder t p [c] s = _
      refine congrArg _ (request_refused ready (n := 1) rfl (by decide) ?_)
      unfold serveReadCylinder
      rw [none]
    · show execReadRows t p [image, first, count] s = _
      exact congrArg _ (request_refused ready (n := 3) rfl (by decide) (if_pos bad))
    · intro n
      have len : ∀ (image : Nat) (img : Image),
          (imageHeader s.cfg image sec.toNat ++ layout (sectionFields img sec.toNat)).length = n := by
        intro image img
        rw [List.length_append, imageHeader_length, sectionFields_length img hs]
        simp only [n]
        split <;> [rfl; (split <;> rfl)]
      exact ⟨⟨_, len _ _, exec_readImage ready t 0 _ hs⟩, ⟨_, len _ _, exec_readImage ready t 1 _ hs⟩⟩
  · intro answers img x a m o portNumber stamp
    have port : ∀ q, portCodeOrNone q = portNumber q := by
      rintro (_ | _ | _ | _) <;> rfl
    have read : ∀ {c : Instr} {pl : List Byte} {fields : List (Nat × Nat)},
        exec c s = .next (s.answered p t ⟨.ok, pl⟩) → pl = layout fields → answers c fields := fun h hf => by
      show exec _ s = _
      rw [h, hf]
    have header : ∀ (image : Nat) (img : Image) (sec : Byte),
        imageHeader s.cfg image sec.toNat ++ layout (sectionFields img sec.toNat) = layout
          [(1, image), (1, sec.toNat), (4, s.cfg.generation.toNat),
           (1, bits [s.cfg.dirty, s.cfg.pendingCommit.isSome,
                     match s.cfg.pendingCommit with | some k => decide (k.timing = .atCycle) | none => false]),
           (1, portNumber s.cfg.lastStaging), (1, match s.cfg.pendingCommit with | some k => k.cls.code | none => 3),
           (1, portNumber (s.cfg.pendingCommit.map (·.port)))] ++ layout (sectionFields img sec.toNat) := by
      intro image img sec
      rw [imageHeader_layout, port, port]
      cases s.cfg.pendingCommit <;> rfl
    refine ⟨read (exec_reading ready t _) ?_, read (exec_reading ready t _) ?_, read (exec_reading ready t _) ?_,
      read (exec_reading ready t _) ?_, read (exec_reading ready t _) ?_, read (exec_reading ready t _) ?_,
      fun b n hn => read (exec_readCylinder ready t hn) ?_, read (exec_reading ready t _) ?_, read (exec_reading ready t _) ?_,
      fun image first count hi hf hc fits => read (exec_readRows ready t hi hf hc fits) ?_,
      fun sec hs => ⟨read (exec_readImage ready t 0 _ hs) ?_, read (exec_readImage ready t 1 _ hs) ?_⟩⟩
    · simp only [statusPayload, layout_cons, layout_nil, beBytes_one, flagByte, bits_eq, List.cons_append, List.nil_append,
        List.append_assoc, List.append_nil, State.port_taken]
      rfl
    · have report : (s.taken p t).angleReport =
          (if a.sync = .fullSync then 2 else if a.sync = .crankSync then 1 else 0,
           if a.sync = .fullSync then a.cycleAngle img t else if a.sync = .crankSync then a.revAngle img t else 0) := by
        unfold State.angleReport
        show (match a.sync with | .fullSync => _ | .crankSync => _ | .halted | .seek | .verify => _) = _
        cases a.sync <;> rfl
      simp only [anglePayload, report, stamp, layout_cons, layout_nil, beBytes_one, flagByte, bits_eq, List.cons_append, List.nil_append,
        List.append_assoc, List.append_nil]
      rfl
    · have line : (s.taken p t).ops.lineActive img =
          decide (img.alsinEnable = 1 ∧ (o.alsin = true ↔ img.alsinActive = 1)) := by
        rw [Bool.eq_iff_iff, decide_eq_true_iff]
        exact Ops.lineActive_iff o img
      unfold opstatePayload
      dsimp only
      rw [show (s.taken p t).cfg.active = img from rfl, line]
      simp only [declBytes_layout, stamp, allPorts, List.flatMap_cons, List.flatMap_nil, layout_append, layout_cons,
        beBytes_one, flagByte, bits_eq, List.cons_append, List.nil_append, List.append_assoc, List.append_nil]
      rfl
    · have counts : m.counts.toList = allCyls.map m.counts.get := rfl
      simp only [misfirePayload, stamp, layout_append, layout_flatMap, layout_map, layout_cons, layout_nil, beBytes_one, flagByte, bits_eq,
        List.cons_append, List.nil_append, List.append_assoc, List.append_nil]
      rw [show (s.taken p t).mfa = m from rfl, counts, List.flatMap_map]
      rfl
    · have void : ∀ g : Option GuardIntegrator, g.any (·.void) = match g with | some q => q.void | none => false := by
        rintro (_ | _) <;> rfl
      simp only [knockFrontPayload, chainBytes, void, stamp, layout_append, layout_flatMap, layout_cons, layout_nil, beBytes_one, flagByte,
        bits_eq, List.cons_append, List.nil_append, List.append_nil, List.flatMap_cons, List.flatMap_nil]
      rfl
    · have cyls : s.kna.cyl.toList = allCyls.map s.kna.cyl.get := rfl
      simp only [knockStatePayload, stamp, layout_append, layout_flatMap, layout_cons, layout_nil, beBytes_one,
        List.cons_append, List.nil_append, List.append_assoc, List.append_nil]
      rw [show (s.taken p t).kna = s.kna from rfl, cyls, List.flatMap_map]
      rfl
    · rw [hn, entryBytes_layout]
      simp only [stamp, layout_append, layout_cons, layout_nil, beBytes_one, List.append_nil]
    · have entries : s.cyt.entry.toList.flatMap entryBytes = allCyls.flatMap fun n => layout (entryFields (s.cyt.entry.get n)) := by
        rw [show s.cyt.entry.toList = allCyls.map s.cyt.entry.get from rfl, List.flatMap_map]
        exact congrArg (allCyls.flatMap ·) (funext fun n => entryBytes_layout _)
      simp only [tablePayload, stamp, layout_append, layout_flatMap, layout_cons, layout_nil, beBytes_one, List.append_nil]
      rw [← entries]
      rfl
    · have requests : s.cap.requests.flatMap Request.bytes = layout (s.cap.requests.flatMap fun r =>
          [(1, r.handle), (1, portCodeOrNone (some r.port)), (1, r.state.code), (1, r.kind.code + 2 * r.mode.code),
           (1, r.target.elim 0 cylNumber), (1, r.count), (1, r.named.toNat), (1, r.latched.toNat)]) := by
        rw [layout_flatMap]
        exact congrArg (s.cap.requests.flatMap ·) (funext Request.bytes_layout)
      simp only [← port]
      rw [layout_append, ← requests]
      simp only [captureStatusPayload, stamp, layout_cons, layout_nil, beBytes_one, List.cons_append, List.nil_append,
        List.append_assoc, List.append_nil, orZero_eq]
      rfl
    · have rows : (List.range count.toNat).flatMap (fun k => rowBytes (if image.toNat = 0 then s.cfg.active else s.cfg.staged)
          (first.toNat + k)) = layout ((List.range count.toNat).flatMap fun k =>
            rowFields (if image.toNat = 0 then s.cfg.active else s.cfg.staged) (first.toNat + k)) := by
        rw [layout_flatMap]
        simp only [rowBytes_layout]
      rw [layout_append, ← rows]
      simp only [rowsPayload, layout_cons, layout_nil, beBytes_one, List.cons_append, List.nil_append, List.append_nil, orZero_eq]
    · exact (header 0 _ sec).trans (layout_append _ _).symm
    · exact (header 1 _ sec).trans (layout_append _ _).symm

end Sys2Proof.Machine
end

section
/-! PROOFS. The capture commands: CAPTURE_READ, MARK, CAPTURE_CANCEL and the expiry of a hold (chapter 9): O45, O46, O48. -/

namespace Sys2Proof.Machine

variable {s u v : State}

/-! ### Commands on a handle (R168) -/

theorem onHandle_zero {p : Port} {h : Byte} (hz : h.toNat = 0) (rest : List Byte) (serve : Request → State → State × Response) (s : State) :
    onHandle p (h :: rest) serve s = refuse .badValue s := if_pos hz

theorem onHandle_none {p : Port} {h : Byte} (hz : h.toNat ≠ 0) (own : s.cap.ownRequest p h.toNat = none) (rest : List Byte)
    (serve : Request → State → State × Response) : onHandle p (h :: rest) serve s = refuse .notAllowed s := by
  refine (if_neg hz).trans ?_
  show (match s.cap.ownRequest p h.toNat with | none => _ | some r => _) = _
  rw [own]

theorem onHandle_own {p : Port} {h : Byte} (hz : h.toNat ≠ 0) {r : Request} (own : s.cap.ownRequest p h.toNat = some r)
    (rest : List Byte) (serve : Request → State → State × Response) : onHandle p (h :: rest) serve s = serve r s := by
  refine (if_neg hz).trans ?_
  show (match s.cap.ownRequest p h.toNat with | none => _ | some r => _) = _
  rw [own]

/-- A handle that no request of the port holds. -/
theorem Cap.ownRequest_none {c : Cap} {p : Port} {h : Nat} (none : ∀ q ∈ c.requests, q.handle = h → q.port ≠ p) :
    c.ownRequest p h = .none := by
  refine List.find?_eq_none.mpr fun q hq => ?_
  rw [Bool.and_eq_true, decide_eq_true_iff, decide_eq_true_iff]
  exact fun both => none q hq both.1 both.2

/-- The request of the list that holds a handle of the port. -/
theorem Cap.Listed.ownRequest {c : Cap} (h : c.Listed) {r : Request} (hr : r ∈ c.requests) :
    c.ownRequest r.port r.handle = some r := by
  unfold Cap.ownRequest
  cases hq : c.requests.find? fun q => decide (q.handle = r.handle) && decide (q.port = r.port) with
  | none =>
    have := List.find?_eq_none.mp hq r hr
    simp at this
  | some q =>
    have both := List.find?_some hq
    rw [Bool.and_eq_true, decide_eq_true_iff, decide_eq_true_iff] at both
    rw [h.list.only (List.mem_of_find?_eq_some hq) hr both.1]

/-- A command on the handle of a request of its own port is served on that request. -/
theorem onHandle_request (h : s.cap.Listed) {r : Request} (hr : r ∈ s.cap.requests) {b : Byte} (hb : r.handle = b.toNat) {p : Port}
    (hp : r.port = p) (rest : List Byte) (serve : Request → State → State × Response) :
    onHandle p (b :: rest) serve s = serve r s := by
  subst hp
  refine onHandle_own ?_ ?_ rest serve
  · have := (h.list.range r hr).1
    omega
  · rw [← hb]
    exact h.ownRequest hr

/-- Taking the request leaves the capture unit. -/
theorem State.taken_cap (s : State) (p : Port) (t : Stamp) : (s.taken p t).cap = s.cap := rfl

/-- The two refusals of a command on a handle. -/
theorem onHandle_refusals {p : Port} (ready : s.ready p) (t : Stamp) (h : Byte) (serve : Request → State → State × Response) :
    (h = 0 → takeRequest t p (ofLength 1 [h] (onHandle p [h] serve)) s = s.answered p t ⟨.badValue, []⟩) ∧
    (h ≠ 0 → (∀ q ∈ s.cap.requests, q.handle = h.toNat → q.port ≠ p) →
      takeRequest t p (ofLength 1 [h] (onHandle p [h] serve)) s = s.answered p t ⟨.notAllowed, []⟩) := by
  refine ⟨fun zero => request_refused ready (n := 1) rfl (by decide) (onHandle_zero (congrArg BitVec.toNat zero) _ _ _),
    fun other none => request_refused ready (n := 1) rfl (by decide) (onHandle_none (s := s.taken p t) ?_ (Cap.ownRequest_none none) _ _)⟩
  exact fun z => other (BitVec.eq_of_toNat_eq z)

/-! ### CAPTURE_READ (R168) -/

/-- A word is sent high byte first. -/
theorem beBytes_word (w : Half) : beBytes 2 w.toNat = [w.extractLsb' 8 8, w.extractLsb' 0 8] := by
  have high : BitVec.ofNat 8 (w.toNat / 256) = w.extractLsb' 8 8 := BitVec.eq_of_toNat_eq (by
    rw [BitVec.extractLsb'_toNat, BitVec.toNat_ofNat, Nat.shiftRight_eq_div_pow])
  have low : BitVec.ofNat 8 w.toNat = w.extractLsb' 0 8 := BitVec.eq_of_toNat_eq (by
    rw [BitVec.extractLsb'_toNat, BitVec.toNat_ofNat, Nat.shiftRight_zero])
  rw [beBytes_two, high, low]

/-- A number of two bytes is sent as those bytes. -/
theorem beBytes_pair (hi lo : Byte) : beBytes 2 (hi.toNat * 256 + lo.toNat) = [hi, lo] := by
  have := hi.isLt
  have := lo.isLt
  have high : BitVec.ofNat 8 ((hi.toNat * 256 + lo.toNat) / 256) = hi := BitVec.eq_of_toNat_eq (by
    rw [BitVec.toNat_ofNat]
    omega)
  have low : BitVec.ofNat 8 (hi.toNat * 256 + lo.toNat) = lo := BitVec.eq_of_toNat_eq (by
    rw [BitVec.toNat_ofNat]
    omega)
  rw [beBytes_two, high, low]

theorem State.holds_iff (s : State) (r : Request) : s.holds r = true ↔ r.state = .active ∧ s.cap.unit = .held := by
  rw [State.holds, Bool.and_eq_true, decide_eq_true_iff, decide_eq_true_iff]

/-- Settles O46: the tests in their order, and the words of the slice. -/
theorem captureRead : Obligations.CaptureRead := by
  intro t p h hi lo n s ready pos held own cmd
  have rule : exec cmd s = .next (takeRequest t p (ofLength 4 [h, hi, lo, n] (onHandle p [h, hi, lo, n] (serveCaptureRead [h, hi, lo, n]))) s) :=
    rfl
  refine ⟨fun zero => ?_, fun some none => ?_, fun r some found => ⟨fun idle => ?_, fun active unit => ⟨fun bad => ?_, fun low high inside => ?_⟩⟩⟩
  · rw [rule, request_refused ready (n := 4) rfl (by decide) (onHandle_zero zero _ _ _)]
  · rw [rule, request_refused ready (n := 4) rfl (by decide) (onHandle_none (s := s.taken p t) some none _ _)]
  · have served := onHandle_own (s := s.taken p t) some found [hi, lo, n] (serveCaptureRead [h, hi, lo, n])
    have not : ¬ (s.taken p t).holds r = true := by
      rw [State.holds_iff]
      rintro ⟨active, unit⟩
      exact idle.elim (· active) (· unit)
    rw [rule, request_refused ready (n := 4) rfl (by decide) (served.trans (if_pos (by simpa using not)))]
  · have served := onHandle_own (s := s.taken p t) some found [hi, lo, n] (serveCaptureRead [h, hi, lo, n])
    have holds : (s.taken p t).holds r = true := (State.holds_iff _ r).mpr ⟨active, unit⟩
    have refused := served.trans ((if_neg (by simp [holds])).trans (if_pos (by exact bad)))
    rw [rule, request_refused ready (n := 4) rfl (by decide) refused]
  · have served := onHandle_own (s := s.taken p t) some found [hi, lo, n] (serveCaptureRead [h, hi, lo, n])
    have holds : (s.taken p t).holds r = true := (State.holds_iff _ r).mpr ⟨active, unit⟩
    have valid : ¬ (n.toNat = 0 ∨ 120 < n.toNat ∨ held ≤ pos) := by omega
    have answer := served.trans ((if_neg (by simp [holds])).trans (if_neg (by exact valid)))
    have named : byte r.handle = h := by
      have := List.find?_some found
      rw [Bool.and_eq_true, decide_eq_true_iff, decide_eq_true_iff] at this
      rw [byte, this.1, BitVec.ofNat_toNat, BitVec.setWidth_eq]
    refine ⟨(s.cap.mem.words.drop pos).take n.toNat, ?_, fun i hi => ?_, ?_⟩
    · rw [List.length_take, List.length_drop]
    · rw [List.length_take] at hi
      rw [List.getElem?_take_of_lt (by omega), List.getElem?_drop]
    · rw [rule, request_served ready (n := 4) rfl (by decide), answer, named]
      have position : u16 [h, hi, lo, n] 1 = pos := rfl
      rw [position, show beBytes 2 pos = [hi, lo] from beBytes_pair hi lo, beBytes_two]
      simp only [beBytes_word]
      rfl

/-! ### MARK and the notices (R160, R161) -/

/-- A single bit is named when it is not absent. -/
theorem condMark_named (p : Port) (b : Byte) : b &&& condMark p ≠ 0 ↔ b &&& condMark p = condMark p := by
  revert b
  cases p <;> decide

/-- R160: a waiting request that does not name the condition keeps its latches and its state. -/
theorem Request.latch_unnamed {r : Request} (agrees : r.state = .waiting ↔ r.latched ≠ r.named) {conds : Byte}
    (h : conds &&& r.named = 0) : r.latch conds = r := by
  by_cases waiting : r.state = .waiting
  · rw [Request.latch_waiting waiting, h, show r.latched ||| 0 = r.latched from BitVec.or_zero, if_neg (agrees.mp waiting), ← waiting]
  · exact Request.latch_idle waiting conds

/-- What the granted unit holds. -/
theorem State.grantedTo_unit (s : State) (t : Stamp) (r : Request) :
    (s.grantedTo t r).cap.active = some r.handle ∧ (s.grantedTo t r).cap.unit ≠ .free ∧ (s.grantedTo t r).cap.mem.words = [] ∧
      (s.grantedTo t r).cap.requests = s.cap.requests.map fun q => if q.handle = r.handle then { q with state := .active } else q := by
  unfold State.grantedTo
  dsimp only
  split <;> exact ⟨rfl, UnitState.noConfusion, rfl, rfl⟩

/-- A grant changes the capture unit and the ports alone. -/
theorem State.grantedTo_eq (s : State) (t : Stamp) (r : Request) :
    s.grantedTo t r = { s with cap := (s.grantedTo t r).cap, ports := (s.grantedTo t r).ports } := by
  unfold State.grantedTo
  dsimp only
  split <;> rfl

theorem GrantTakes.mem {l : List Request} {r : Request} (h : GrantTakes l r) : r ∈ l := by
  obtain ⟨_, _, before, after, e, _⟩ := h
  rw [e]
  exact List.mem_append_right _ (List.mem_cons_self ..)

/-- Where a grant is made or not, the requests keep everything but their state. -/
theorem GrantMade.handles {t : Stamp} (h : GrantMade t s u) : u.cap.requests.map (·.handle) = s.cap.requests.map (·.handle) := by
  obtain ⟨idle, grants⟩ := h
  by_cases hu : s.cap.unit = .free ∧ ∃ q ∈ s.cap.requests, q.state = .triggered
  · obtain ⟨r, _, rfl⟩ := grants hu.1 hu.2
    rw [(s.grantedTo_unit t r).2.2.2, List.map_map]
    refine List.map_congr_left fun q _ => ?_
    show (if q.handle = r.handle then _ else q : Request).handle = _
    split <;> rfl
  · rw [idle ?_]
    by_cases free : s.cap.unit = .free
    · exact .inr fun q hq ht => hu ⟨free, q, hq, ht⟩
    · exact .inl free

/-- What MARK leaves of a request of an agreeing unit. -/
theorem Request.latch_mark {r : Request} (agrees : r.state = .waiting ↔ r.latched ≠ r.named) (p : Port) :
    r.latch (condMark p) =
      if decide (r.state = .waiting) && decide (r.named &&& condMark p = condMark p) then
        { r with latched := r.latched ||| condMark p, state := if r.latched ||| condMark p = r.named then .triggered else .waiting }
      else r := by
  by_cases named : r.named &&& condMark p = condMark p
  · by_cases waiting : r.state = .waiting
    · rw [if_pos (by simp [waiting, named]), Request.latch_waiting waiting, BitVec.and_comm, named]
    · rw [if_neg (by simp [waiting]), Request.latch_idle waiting]
  · rw [if_neg (by simp [named]), Request.latch_unnamed agrees]
    rw [BitVec.and_comm]
    exact not_not.mp fun h => named ((condMark_named p r.named).mp h)

/-- Settles O45: the latches of a MARK, the grant that follows, and the notices that latch in the same way. -/
theorem mark : Obligations.Mark := by
  refine ⟨fun t p s ready agrees => ?_, fun t s distinct => ⟨State.latchAll_made distinct t _, fun n m k => State.latchAll_made distinct t _⟩⟩
  intro bit hit after answer
  have bits : bit = condMark p := by cases p <;> rfl
  have latched : ∀ r ∈ s.cap.requests, r.latch (condMark p) = after r := by
    intro r hr
    rw [Request.latch_mark (agrees.waits r hr)]
    simp only [after, hit, bits]
  let v : State := { s.taken p t with cap := { s.cap with requests := s.cap.requests.map after } }
  have marked : ((s.taken p t).modCap fun c => { c with requests := c.requests.map fun r => r.latch (condMark p) }) = v := by
    show { s.taken p t with cap := { s.cap with requests := s.cap.requests.map fun r => r.latch (condMark p) } } = v
    rw [List.map_congr_left latched]
  have made : GrantMade t v ((s.taken p t).latchAll t fun _ => condMark p) := by
    rw [← marked]
    exact State.latchAll_made (s := s.taken p t) agrees.distinct t _
  have hits : s.cap.marked p = s.cap.requests.filter hit := by
    refine List.filter_congr fun r _ => ?_
    simp only [hit, bits, ← condMark_named]
  have serve : serveMark t p (s.taken p t) = ((s.taken p t).latchAll t fun _ => condMark p, answer) := by
    have triggered : ((s.cap.marked p).countP fun r => decide ((r.latch (condMark p)).state = .triggered)) =
        ((s.cap.requests.filter hit).filter fun r => decide ((after r).state = .triggered)).length := by
      rw [hits, List.countP_eq_length_filter, List.filter_congr]
      intro r hr
      rw [latched r (List.mem_of_mem_filter hr)]
    unfold serveMark
    dsimp only
    rw [State.taken_cap, triggered, hits]
    rfl
  have rule : exec (.mark t p []) s = .next (((s.taken p t).latchAll t fun _ => condMark p).withResponse p answer) := by
    show execMark t p [] s = _
    rw [execMark, request_served ready (n := 0) rfl (by decide), serve]
  refine ⟨fun none => ?_, fun free some => ?_, ⟨_, made, rule⟩⟩
  · rw [rule, made.1 (none.imp_right fun h q hq => ?_)]
    · rfl
    · obtain ⟨r, hr, rfl⟩ := List.mem_map.mp hq
      exact h r hr
  · obtain ⟨g', takes, granted⟩ := made.2 free (by
      obtain ⟨r, hr, ht⟩ := some
      exact ⟨_, List.mem_map_of_mem hr, ht⟩)
    obtain ⟨g, hg, rfl⟩ := List.mem_map.mp takes.mem
    have handle : (after g).handle = g.handle := by rw [← latched g hg, Request.latch_handle]
    obtain ⟨active, unit, words, requests⟩ := v.grantedTo_unit t (after g)
    refine ⟨_, g, rule, ?_, ?_, hg, takes.1, ?_, ?_, ?_, ?_⟩
    · rw [granted, v.grantedTo_eq t (after g)]
      rfl
    · exact congrArg PortState.buffer (PerPort.get_set_same ..)
    · show (State.latchAll _ t _).cap.active = _
      rw [granted, active, handle]
    · show (State.latchAll _ t _).cap.unit ≠ _
      rw [granted]
      exact unit
    · show (State.latchAll _ t _).cap.mem.words = _
      rw [granted]
      exact words
    · show (State.latchAll _ t _).cap.requests = _
      rw [granted, requests]
      show (s.cap.requests.map after).map _ = _
      rw [List.map_map]
      refine List.map_congr_left fun r hr => ?_
      have same : (after r).handle = r.handle := by rw [← latched r hr, Request.latch_handle]
      exact if_congr (Iff.of_eq (by rw [same, handle])) rfl rfl

/-! ### CAPTURE_CANCEL and the expiry of the hold (R170, R171) -/

theorem State.emitCapture_eq (s : State) (t : Stamp) (r : Request) (o : CapOutcome) :
    s.emitCapture t r o =
      { s with ports := s.ports.set r.port (captureEnded t s.adec.cycle r o s.cap.mem.words.length (s.ports.get r.port)) } := by
  unfold State.emitCapture
  simp only [State.alertOn, State.emitTo, State.setPort_setPort, State.port_setPort_same, PortState.offer_eq]
  rfl

/-- R170, R171: the state in which the ACTIVE request has ended with outcome `o`, its memory is free and it has left the list. -/
def State.dropped (s : State) (t : Stamp) (r : Request) (o : CapOutcome) : State :=
  { s with
    cap := { s.cap with unit := .free, active := none, mem := ⟨[]⟩, started := false, window := none
                        requests := s.cap.requests.filter fun q => decide (q.handle ≠ r.handle) }
    ports := s.ports.set r.port (captureEnded t s.adec.cycle r o s.cap.mem.words.length (s.ports.get r.port)) }

theorem State.emitCapture_drop (s : State) (t : Stamp) (r : Request) (o : CapOutcome) :
    ((s.emitCapture t r o).modCap fun c => c.freeMemory.removeRequest r.handle) = s.dropped t r o := by
  rw [State.emitCapture_eq]
  rfl

/-- What is left of the list has no request more. -/
theorem State.dropped_idle (h : ∀ q ∈ s.cap.requests, q.state ≠ .triggered) (t : Stamp) (r : Request) (o : CapOutcome) :
    (s.dropped t r o).grant t = s.dropped t r o :=
  State.grant_idle (fun q hq => h q (List.mem_of_mem_filter hq)) t

theorem State.dropped_grant (h : (s.cap.requests.map (·.handle)).Nodup) (t : Stamp) (r : Request) (o : CapOutcome) :
    GrantMade t (s.dropped t r o) ((s.dropped t r o).grant t) :=
  State.grant_made (h.sublist (List.filter_sublist.map _)) t

theorem State.holdDue_iff (s : State) (t : Stamp) :
    s.holdDue t = true ↔ s.cap.unit = .held ∧ s.cap.holdTicks ≤ (t - s.cap.holdStart).toNat := by
  rw [State.holdDue, Bool.and_eq_true, decide_eq_true_iff, decide_eq_true_iff]
  rfl

/-- R170: the expiry drops the ACTIVE request. -/
theorem exec_holdExpiry (h : s.running = true) {r : Request} (active : s.cap.activeRequest = some r) (held : s.cap.unit = .held) {t : Stamp}
    (due : s.cap.holdTicks ≤ (t - s.cap.holdStart).toNat) :
    exec (.captureHoldExpiry t) s = .next ((State.dropped { s with timebase := t } t r .expired).grant t) := by
  have rule : exec (.captureHoldExpiry t) s =
      .next (if (s.setTimebase t).holdDue t then (s.setTimebase t).expireHold t else s.setTimebase t) := congrArg _ (onEvent_running h t _)
  rw [rule, if_pos ((State.holdDue_iff (s.setTimebase t) t).mpr ⟨held, due⟩), State.expireHold,
    show (s.setTimebase t).cap.activeRequest = some r from active]
  dsimp only
  rw [State.emitCapture_drop]
  rfl

/-- R171: the cancel of the ACTIVE request drops it. -/
theorem exec_cancel_active {p : Port} (ready : s.ready p) (agrees : CaptureAgrees s) {r : Request} (hr : r ∈ s.cap.requests) {h : Byte}
    (handle : r.handle = h.toNat) (port : r.port = p) (active : r.state = .active) (t : Stamp) :
    exec (.captureCancel t p [h]) s = .next ((((s.taken p t).dropped t r .cancelled).grant t).withResponse p
      ⟨.ok, [if s.cap.unit = .held then 3 else 2]⟩) := by
  have served := onHandle_request (s := s.taken p t) (by exact agrees.listed) (by exact hr) handle port [] (serveCaptureCancel t)
  have code : byte ((s.taken p t).cancelCode r) = if s.cap.unit = .held then 3 else 2 := by
    unfold State.cancelCode
    by_cases held : s.cap.unit = .held
    · rw [if_pos ((State.holds_iff (s.taken p t) r).mpr ⟨active, held⟩), if_pos held]
      rfl
    · rw [if_neg (fun x => held ((State.holds_iff (s.taken p t) r).mp x).2), if_neg held, active]
      rfl
  have cancel : serveCaptureCancel t r (s.taken p t) =
      (((s.taken p t).dropped t r .cancelled).grant t, ⟨.ok, [if s.cap.unit = .held then 3 else 2]⟩) := by
    unfold serveCaptureCancel
    rw [if_pos active, State.emitCapture_drop, code]
    rfl
  show execCaptureCancel t p [h] s = _
  rw [execCaptureCancel, request_served ready (n := 1) rfl (by decide), served, cancel]

/-- Settles O48: the cancel by the request's state, the expiry by the hold timer, each with the grant that follows. -/
theorem cancelAndExpiry : Obligations.CancelAndExpiry := by
  refine ⟨fun t p h s ready => ?_, fun t p h r s agrees hr handle port => ?_⟩
  · obtain ⟨zero, none⟩ := onHandle_refusals ready t h (serveCaptureCancel t)
    exact ⟨fun z => congrArg _ (zero z), fun some other => congrArg _ (none some other)⟩
  · intro rest freed ended
    subst port
    have only : s.cap.active = some r.handle → s.cap.activeRequest = some r := by
      intro named
      rw [Cap.activeRequest, named]
      exact find_handle agrees.distinct hr
    refine ⟨fun ready idle => ?_, fun ready active none => ?_, fun running held named due none => ?_, fun running early => ?_,
      fun ready active => ⟨_, State.dropped_grant (s := s.taken r.port t) agrees.distinct t r _, exec_cancel_active ready agrees hr handle rfl active t⟩,
      fun running held named due => ⟨_, State.dropped_grant (s := { s with timebase := t }) agrees.distinct t r _,
        exec_holdExpiry running (only named) held due⟩⟩
    · have served := onHandle_request (s := s.taken r.port t) (by exact agrees.listed) (by exact hr) handle rfl [] (serveCaptureCancel t)
      have code : (s.taken r.port t).cancelCode r = r.state.code := if_neg fun x => idle ((State.holds_iff _ r).mp x).1
      have cancel : serveCaptureCancel t r (s.taken r.port t) =
          ({ s.taken r.port t with cap := { s.cap with requests := rest } }, ⟨.ok, [BitVec.ofNat 8 r.state.code]⟩) := by
        unfold serveCaptureCancel
        rw [if_neg idle, code]
        rfl
      show execCaptureCancel t r.port [h] s = _
      rw [execCaptureCancel, request_served ready (n := 1) rfl (by decide), served, cancel]
      rfl
    · rw [exec_cancel_active ready agrees hr handle rfl active, State.dropped_idle (by exact none)]
      rfl
    · rw [exec_holdExpiry running (only named) held due, State.dropped_idle (by exact none)]
      rfl
    · have rule : exec (.captureHoldExpiry t) s =
          .next (if (s.setTimebase t).holdDue t then (s.setTimebase t).expireHold t else s.setTimebase t) :=
        congrArg _ (onEvent_running running t _)
      have idle : ¬ (s.setTimebase t).holdDue t = true := by
        rw [State.holdDue_iff]
        rintro ⟨held, due⟩
        exact early.elim (· held) (fun x => absurd due (Nat.not_le.mpr x))
      rw [rule, if_neg idle]
      rfl

end Sys2Proof.Machine
end

section
/-! PROOFS. PORT_RESET and CAPTURE_RELEASE (chapters 9 and 11): O43, O47. -/

namespace Sys2Proof.Machine

variable {s u v : State}

/-! ### What a grant does to the list and to the ports (R162) -/

/-- A request without its state. -/
def Request.forgotten (r : Request) : Request := { r with state := .waiting }

theorem State.endFilling_list (s : State) (t : Stamp) (o : CapOutcome) :
    (s.endFilling t o).cap.requests = s.cap.requests ∧ (s.endFilling t o).cap.nextHandle = s.cap.nextHandle := by
  unfold State.endFilling
  split
  · exact ⟨rfl, rfl⟩
  · rw [State.emitCapture_eq]
    exact ⟨rfl, rfl⟩

/-- A grant keeps the requests but for their states. -/
theorem State.grant_list (s : State) (t : Stamp) :
    (s.grant t).cap.requests.map Request.forgotten = s.cap.requests.map Request.forgotten ∧
      (s.grant t).cap.nextHandle = s.cap.nextHandle := by
  have activated : ∀ h, (setRequestState h .active s.cap.requests).map Request.forgotten = s.cap.requests.map Request.forgotten := by
    intro h
    rw [setRequestState, List.map_map]
    refine List.map_congr_left fun r _ => ?_
    show Request.forgotten (if r.handle = h then _ else r) = _
    split <;> rfl
  unfold State.grant
  split
  · split
    · exact ⟨rfl, rfl⟩
    · next r _ =>
      dsimp only
      split
      · rw [(State.endFilling_list _ t _).1, (State.endFilling_list _ t _).2]
        exact ⟨activated r.handle, rfl⟩
      · exact ⟨activated r.handle, rfl⟩
  · exact ⟨rfl, rfl⟩

/-- A port without requests has nothing of a grant. -/
theorem State.grant_port {p : Port} (h : ∀ q ∈ s.cap.requests, q.port ≠ p) (t : Stamp) : (s.grant t).ports.get p = s.ports.get p := by
  have ended : ∀ (x : State) (o : CapOutcome), (∀ q ∈ x.cap.requests, q.port ≠ p) →
      (x.endFilling t o).ports.get p = x.ports.get p := by
    intro x o hx
    unfold State.endFilling
    split
    · rfl
    · next r hr =>
      have listed : r ∈ x.cap.requests := by
        unfold Cap.activeRequest at hr
        split at hr
        · exact List.mem_of_find?_eq_some hr
        · exact nomatch hr
      rw [State.emitCapture_eq]
      exact PerPort.get_set_ne _ _ (hx r listed).symm
  unfold State.grant
  split
  · split
    · rfl
    · next r _ =>
      dsimp only
      split
      · refine (ended _ _ fun q hq => ?_).trans rfl
        obtain ⟨q', hq', rfl⟩ := List.mem_map.mp hq
        have := h q' hq'
        split <;> exact this
      · rfl
  · rfl

theorem State.endFilling_setOps (s : State) (t : Stamp) (o : CapOutcome) (x : Ops) :
    (s.endFilling t o).setOps x = (s.setOps x).endFilling t o := by
  unfold State.endFilling
  rw [show (s.setOps x).cap = s.cap from rfl]
  cases s.cap.activeRequest <;> rfl

/-- A grant and the operating state do not touch one another. -/
theorem State.grant_setOps (s : State) (t : Stamp) (x : Ops) : (s.grant t).setOps x = (s.setOps x).grant t := by
  unfold State.grant
  rw [show (s.setOps x).cap = s.cap from rfl, show (s.setOps x).cfg = s.cfg from rfl]
  split
  · split
    · rfl
    · split
      · exact State.endFilling_setOps _ t _ x
      · rfl
  · rfl

theorem State.setDecl_eq (s : State) (p : Port) (d : Option Declaration) :
    s.setDecl p d = s.setOps (Ops.merge { s.ops with decl := s.ops.decl.set p d } s.cfg.active) := rfl

/-! ### PORT_RESET (R189) -/

/-- R189: port, declaration slot and requests after PORT_RESET, before the grant. -/
def State.portCleared (s : State) (p : Port) (t : Stamp) : State :=
  { s with
    timebase := t
    ports := s.ports.set p
      { s.ports.get p with
        queue := [], dropped := 0, subscription := 0, alerts := 0, alertMask := 0
        selection := .idle, dataOut := none, busy := true, busySince := t }
    ops := Ops.merge { s.ops with decl := s.ops.decl.set p none } s.cfg.active
    cap := s.cap.portReset p }

/-- R189: the cleared state, with the grant, and the answer in the buffer. -/
theorem exec_portReset {p : Port} (ready : s.ready p) (t : Stamp) :
    exec (.portReset t p []) s = .next (((s.portCleared p t).grant t).withResponse p
      ⟨.ok, [BitVec.ofNat 8 (s.ports.get p).queue.length, BitVec.ofNat 8 ((s.ports.get p).dropped / 256),
        BitVec.ofNat 8 (s.ports.get p).dropped, BitVec.ofNat 8 (s.cap.requests.filter fun r => decide (r.port = p)).length]⟩) := by
  let first := ((s.taken p t).setPort p ((s.taken p t).port p).resetRecords).modCap fun c => c.portReset p
  have frame := first.grant_frame t
  have granted : (first.grant t).setDecl p none = (s.portCleared p t).grant t := by
    rw [State.setDecl_eq, frame.ops, frame.cfg, State.grant_setOps]
    refine congrArg (State.grant · t) ?_
    have ports : ∀ x, (s.taken p t).ports.set p x = s.ports.set p x := fun x => PerPort.set_set ..
    simp only [first, State.port_taken, State.setPort_eq, ports]
    rfl
  have buffered : ∀ (x : State) (r : Response), (x.setPort p { x.port p with buffer := none }).withResponse p r = x.withResponse p r := by
    intro x r
    rw [State.setPort_eq]
    unfold State.withResponse
    dsimp only
    rw [PerPort.get_set_same, PerPort.set_set]
    rfl
  show execPortReset t p [] s = _
  rw [execPortReset, request_served ready (n := 0) rfl (by decide)]
  unfold servePortReset
  dsimp only
  rw [buffered, show (State.grant _ t).setDecl p none = _ from granted, State.port_taken, beBytes_two, List.countP_eq_length_filter]
  rfl

/-- R174: the requests of the port leave the list. -/
theorem Cap.portReset_list (c : Cap) (p : Port) :
    (c.portReset p).requests = c.requests.filter (fun r => decide (r.port ≠ p)) ∧ (c.portReset p).nextHandle = c.nextHandle := by
  unfold Cap.portReset
  dsimp only
  split <;> exact ⟨rfl, rfl⟩

/-- Settles O43: the cleared port, and the unit it owns or does not own. -/
theorem portReset : Obligations.PortReset := by
  intro t p s ready x answer y others ops gone
  have rule := exec_portReset ready t
  obtain ⟨list, next⟩ := s.cap.portReset_list p
  have apart : ∀ q ∈ (s.portCleared p t).cap.requests, q.port ≠ p := by
    intro q hq
    rw [show (s.portCleared p t).cap.requests = _ from list] at hq
    simpa using (List.mem_filter.mp hq).2
  refine ⟨⟨_, rule, ?_, ?_, ?_, ?_⟩, fun agrees foreign => ?_, fun agrees own => ⟨(s.portCleared p t).grant t, ?_, rule⟩⟩
  · refine (PerPort.get_set_same ..).trans ?_
    rw [State.grant_port apart]
    show ({ (s.ports.set p _).get p with buffer := some answer } : PortState) = _
    rw [PerPort.get_set_same]
  · conv_lhs => rw [((s.portCleared p t).grant_frame t).eq]
    rfl
  · exact ((s.portCleared p t).grant_list t).2.trans next
  · exact ((s.portCleared p t).grant_list t).1.trans (congrArg (List.map Request.forgotten) list)
  · have kept : s.cap.portReset p = { s.cap with requests := others } := by
      unfold Cap.portReset
      rw [if_neg foreign]
    have idle : (s.portCleared p t).grant t = s.portCleared p t := by
      by_cases free : s.cap.unit = .free
      · refine State.grant_idle (fun q hq => ?_) t
        rw [show (s.portCleared p t).cap.requests = _ from list] at hq
        exact agrees.granted free q (List.mem_of_mem_filter hq)
      · refine State.grant_busy ?_ t
        show (s.cap.portReset p).unit ≠ .free
        rw [kept]
        exact free
    rw [rule, idle, State.portCleared, kept]
  · have freed : s.cap.portReset p =
        { s.cap with unit := .free, active := none, mem := ⟨[]⟩, started := false, window := none, requests := others } := by
      unfold Cap.portReset
      rw [if_pos own]
      rfl
    have cleared : s.portCleared p t = gone (s.cap.portReset p) := rfl
    rw [cleared, freed]
    exact State.grant_made (agrees.distinct.sublist (List.filter_sublist.map _)) t

/-! ### Arming (R159, R160, R169) -/

theorem armConds_eq (s : State) : armConds s = if s.adec.sync = .fullSync then 3#8 else 1#8 := rfl

/-- IMMEDIATE and FULL_SYNC in FULL_SYNC, and IMMEDIATE alone elsewhere, arm a valid condition set at once. -/
theorem armed_iff (s : State) {named : Byte} (some : named ≠ 0) (alone : named.getLsbD 0 = true → named = 1#8) :
    armConds s &&& named = named ↔ named = 1#8 ∨ (named = 2#8 ∧ s.adec.sync = .fullSync) := by
  have both : ∀ b : Byte, b ≠ 0 → (b.getLsbD 0 = true → b = 1#8) → (3#8 &&& b = b ↔ b = 1#8 ∨ b = 2#8) := by decide
  have first : ∀ b : Byte, b ≠ 0 → (b.getLsbD 0 = true → b = 1#8) → (1#8 &&& b = b ↔ b = 1#8) := by decide
  rw [armConds_eq]
  by_cases full : s.adec.sync = .fullSync
  · rw [if_pos full, both named some alone]
    simp [full]
  · rw [if_neg full, first named some alone]
    simp [full]

/-- What is latched of a condition set without IMMEDIATE. -/
theorem armed_latches (s : State) {named : Byte} (h : named.getLsbD 0 = false) :
    armConds s &&& named = if s.adec.sync = .fullSync then named &&& 2#8 else 0 := by
  have both : ∀ b : Byte, b.getLsbD 0 = false → 3#8 &&& b = b &&& 2#8 ∧ 1#8 &&& b = 0 := by decide
  rw [armConds_eq]
  split
  · exact (both named h).1
  · exact (both named h).2

theorem Cap.stateAfter_absent {c : Cap} {h : Nat} (none : ∀ q ∈ c.requests, q.handle ≠ h) : c.stateAfter h = 3 := by
  unfold Cap.stateAfter
  rw [List.find?_eq_none.mpr fun q hq => by simpa using none q hq]

theorem Cap.stateAfter_mem {c : Cap} (distinct : (c.requests.map (·.handle)).Nodup) {q : Request} (hq : q ∈ c.requests) :
    c.stateAfter q.handle = q.state.code := by
  unfold Cap.stateAfter
  rw [find_handle distinct hq]

/-! ### CAPTURE_RELEASE (R169) -/

/-- R169: the list after a release, before the grant. -/
def State.releasedList (s : State) (r : Request) : List Request :=
  match r.mode with
  | .once => s.cap.requests.filter fun q => decide (q.handle ≠ r.handle)
  | .repeating => s.cap.requests.map fun q =>
    if q.handle = r.handle then
      { q with latched := armConds s &&& q.named, state := if armConds s &&& q.named = q.named then .triggered else .waiting }
    else q

/-- R169: the capture unit freed, with the list after the release. -/
def State.released (s : State) (r : Request) : State :=
  { s with cap := { s.cap with unit := .free, active := none, mem := ⟨[]⟩, started := false, window := none
                               requests := s.releasedList r } }

theorem State.modCap_release (s : State) (r : Request) :
    (s.modCap fun c => c.freeMemory.release (armConds s) r) = s.released r := by
  unfold State.released State.releasedList State.modCap Cap.release
  cases r.mode
  · rfl
  · simp only [Request.rearm_eq]
    rfl

theorem State.releasedList_handles (h : s.cap.Listed) (r : Request) : ((s.releasedList r).map (·.handle)).Nodup := by
  unfold State.releasedList
  split
  · exact h.list.distinct.sublist (List.filter_sublist.map _)
  · rw [List.map_map]
    have same : ((·.handle) ∘ fun q : Request =>
        if q.handle = r.handle then
          { q with latched := armConds s &&& q.named, state := if armConds s &&& q.named = q.named then .triggered else .waiting }
        else q) = (·.handle) := by
      funext q
      simp only [Function.comp]
      split <;> rfl
    rw [same]
    exact h.list.distinct

/-- R169: the release of the held request. -/
theorem exec_release {p : Port} (ready : s.ready p) (listed : s.cap.Listed) {r : Request} (hr : r ∈ s.cap.requests) {h : Byte}
    (handle : r.handle = h.toNat) (port : r.port = p) (active : r.state = .active) (held : s.cap.unit = .held) (t : Stamp) :
    exec (.captureRelease t p [h]) s = .next ((((s.taken p t).released r).grant t).withResponse p
      ⟨.ok, [h, BitVec.ofNat 8 ((((s.taken p t).released r).grant t).cap.stateAfter r.handle)]⟩) := by
  have served := onHandle_request (s := s.taken p t) (by exact listed) (by exact hr) handle port [] (serveCaptureRelease t)
  have holds : (s.taken p t).holds r = true := (State.holds_iff _ r).mpr ⟨active, held⟩
  have named : byte r.handle = h := by rw [byte, handle, BitVec.ofNat_toNat, BitVec.setWidth_eq]
  have release : serveCaptureRelease t r (s.taken p t) =
      (((s.taken p t).released r).grant t,
        ⟨.ok, [h, BitVec.ofNat 8 ((((s.taken p t).released r).grant t).cap.stateAfter r.handle)]⟩) := by
    unfold serveCaptureRelease
    rw [if_neg (by simp [holds]), State.modCap_release, named]
    rfl
  show execCaptureRelease t p [h] s = _
  rw [execCaptureRelease, request_served ready (n := 1) rfl (by decide), served, release]

/-- Settles O47: the freed unit, the request that leaves or re-arms, and the grant. -/
theorem captureRelease : Obligations.CaptureRelease := by
  refine ⟨fun t p h s ready => ?_, fun t p h r s ready agrees hr handle port => ?_⟩
  · obtain ⟨zero, none⟩ := onHandle_refusals ready t h (serveCaptureRelease t)
    exact ⟨fun z => congrArg _ (zero z), fun some other => congrArg _ (none some other)⟩
  · intro cmd now freed
    have listed := agrees.listed
    let x := (s.taken p t).released r
    have made : GrantMade t x (x.grant t) := State.grant_made (State.releasedList_handles (s := s.taken p t) listed r) t
    have rule : r.state = .active → s.cap.unit = .held → exec cmd s = _ := fun active held =>
      exec_release ready listed hr handle port active held t
    have arms : armConds (s.taken p t) = armConds s := rfl
    have same : ∀ q ∈ s.cap.requests, q.handle = r.handle → q = r := fun q hq hh => listed.list.only hq hr hh
    refine ⟨fun idle => ?_, fun active held none => ⟨fun once => ?_, fun repeats some bit later => ?_, fun repeats now' runs => ?_⟩,
      fun active held => ?_⟩
    · have served := onHandle_request (s := s.taken p t) (by exact listed) (by exact hr) handle port [] (serveCaptureRelease t)
      have notHeld : ¬ (s.taken p t).holds r = true := by
        rw [State.holds_iff]
        rintro ⟨active, held⟩
        exact idle.elim (· active) (· held)
      show execCaptureRelease t p [h] s = _
      rw [execCaptureRelease, request_refused ready (n := 1) rfl (by decide) (served.trans (if_pos (by simpa using notHeld)))]
    · have list : x.cap.requests = s.cap.requests.filter fun q => decide (q.handle ≠ r.handle) := by
        show State.releasedList _ r = _
        unfold State.releasedList
        rw [once]
        rfl
      have quiet : x.grant t = x := State.grant_idle (fun q hq => by
        rw [list] at hq
        exact none q (List.mem_of_mem_filter hq)) t
      have code : x.cap.stateAfter r.handle = 3 := Cap.stateAfter_absent fun q hq => by
        rw [list] at hq
        simpa using (List.mem_filter.mp hq).2
      rw [rule active held, quiet, code, ← list]
      rfl
    · have list : x.cap.requests = s.cap.requests.map fun q =>
          if q.handle = r.handle then
            { q with state := .waiting, latched := if s.adec.sync = .fullSync then q.named &&& 2#8 else 0 }
          else q := by
        show State.releasedList _ r = _
        unfold State.releasedList
        rw [repeats]
        refine List.map_congr_left fun q hq => ?_
        split
        · next hh =>
          obtain rfl := same q hq hh
          rw [arms, if_neg (fun armed => later ((armed_iff s some (fun b => absurd (bit.symm.trans b) (by decide))).mp armed)),
            armed_latches _ bit]
        · rfl
      have quiet : x.grant t = x := State.grant_idle (fun q hq => by
        rw [list] at hq
        obtain ⟨q', hq', rfl⟩ := List.mem_map.mp hq
        split
        · exact ReqState.noConfusion
        · exact none q' hq') t
      have code : x.cap.stateAfter r.handle = 0 := by
        refine Cap.stateAfter_mem (State.releasedList_handles (s := s.taken p t) listed r)
          (q := { r with state := .waiting, latched := if s.adec.sync = .fullSync then r.named &&& 2#8 else 0 }) ?_
        rw [list]
        exact List.mem_map.mpr ⟨r, hr, if_pos rfl⟩
      rw [rule active held, quiet, code, ← list]
      rfl
    · have armed : armConds s &&& r.named = r.named := by
        obtain e | ⟨e, full⟩ := now'
        · rw [e]
          exact (armed_iff s (by decide) (by decide)).mpr (.inl rfl)
        · rw [e]
          exact (armed_iff s (by decide) (by decide)).mpr (.inr ⟨rfl, full⟩)
      have whole : r.latched = r.named := by
        by_contra apart
        rw [(agrees.waits r hr).mpr apart] at active
        exact nomatch active
      have list : x.cap.requests = s.cap.requests.map fun q =>
          if q.handle = r.handle then { q with state := .triggered } else q := by
        show State.releasedList _ r = _
        unfold State.releasedList
        rw [repeats]
        refine List.map_congr_left fun q hq => ?_
        split
        · next hh =>
          obtain rfl := same q hq hh
          rw [arms, if_pos armed, armed, ← whole]
        · rfl
      have rearmed : { r with state := ReqState.triggered } ∈ x.cap.requests := by
        rw [list]
        exact List.mem_map.mpr ⟨r, hr, if_pos rfl⟩
      obtain ⟨g, takes, granted⟩ := made.2 rfl ⟨_, rearmed, rfl⟩
      have chosen : g = { r with state := .triggered } := by
        have hg := takes.mem
        have triggered := takes.1
        rw [list] at hg
        obtain ⟨q, hq, rfl⟩ := List.mem_map.mp hg
        by_cases hh : q.handle = r.handle
        · rw [if_pos hh, same q hq hh]
        · rw [if_neg hh] at triggered
          exact absurd triggered (none q hq)
      have back : (x.cap.requests.map fun q => if q.handle = r.handle then { q with state := .active } else q) = s.cap.requests := by
        rw [list, List.map_map]
        refine (List.map_congr_left fun q hq => ?_).trans (List.map_id _)
        simp only [Function.comp]
        by_cases hh : q.handle = r.handle
        · obtain rfl := same q hq hh
          simp only [↓reduceIte]
          rw [← active]
          rfl
        · simp only [if_neg hh]
          rfl
      have result : x.grant t =
          { s.taken p t with
            cap := { s.cap with
                     unit := .filling, active := some r.handle, mem := ⟨[]⟩, recorded := 0, started := false
                     window := Option.none } } := by
        have inList : g.kind = .tooth ∨ ∃ c ∈ allCyls, g.target = some c ∧ x.cfg.active.hasCyl c = true := by
          rw [chosen]
          refine runs.imp_right fun ⟨c, hc, hx⟩ => ⟨c, ?_, hc, hx⟩
          cases c <;> decide
        rw [granted, State.grantedTo, if_pos inList, chosen]
        dsimp only
        rw [back]
        rfl
      have code : (x.grant t).cap.stateAfter r.handle = 2 := by
        rw [result]
        refine (Cap.stateAfter_mem (by exact agrees.distinct) (by exact hr)).trans ?_
        rw [active]
        rfl
      rw [rule active held, code, result]
      rfl
    · intro arms' rest
      have distinct : ((x.grant t).cap.requests.map (·.handle)).Nodup := by
        rw [made.handles]
        exact State.releasedList_handles (s := s.taken p t) listed r
      refine ⟨x.grant t, (x.grant t).cap.stateAfter r.handle, made, rule active held, fun once => ?_, fun _ q hq hh => ?_⟩
      · refine Cap.stateAfter_absent fun q hq hh => ?_
        have member : q.handle ∈ x.cap.requests.map (·.handle) := by
          rw [← made.handles]
          exact List.mem_map_of_mem hq
        obtain ⟨q', hq', e⟩ := List.mem_map.mp member
        have list : x.cap.requests = s.cap.requests.filter fun q => decide (q.handle ≠ r.handle) := by
          show State.releasedList _ r = _
          unfold State.releasedList
          rw [once]
          rfl
        rw [list] at hq'
        have := (List.mem_filter.mp hq').2
        simp [e, hh] at this
      · rw [← hh]
        exact Cap.stateAfter_mem distinct hq

end Sys2Proof.Machine
end

section
/-! PROOFS. CAPTURE_REQUEST (section 9.3): O44. -/

namespace Sys2Proof.Machine

variable {s u v : State}

/-! ### The request that is placed (R158) -/

theorem conditionsFit_iff (named : Byte) : conditionsFit named = true ↔ named ≠ 0 ∧ (named.getLsbD 0 = true → named = 1#8) := by
  revert named
  decide

/-- R158: a target in range is that cylinder's number, or 0 for a TOOTH request of none. -/
theorem targetOf_valid {k : CapKind} {v : Nat} (low : k = .tooth ∨ v ≠ 0) (high : v ≤ 6) :
    ∃ target, targetOf k v = some target ∧ target.elim 0 cylNumber = v := by
  by_cases zero : v = 0
  · obtain rfl | some := low
    · exact ⟨none, by rw [zero]; rfl, zero.symm⟩
    · exact absurd zero some
  · obtain ⟨n, hn⟩ := cylNumber_exists (Nat.one_le_iff_ne_zero.mpr zero) high
    refine ⟨some n, ?_, hn⟩
    have cyl : cylOfNumber v = some n := cylOfNumber_eq_some.mpr hn.symm
    unfold targetOf
    split
    · exact absurd rfl zero
    · rw [cyl]
      rfl

theorem targetOf_none {k : CapKind} {v : Nat} (h : (k = .knockRaw ∧ v = 0) ∨ 6 < v) : targetOf k v = none := by
  have beyond : cylOfNumber v = none := cylOfNumber_none.mpr (h.imp_left And.right)
  unfold targetOf
  split
  · simp at h
  · rw [beyond]
    rfl

theorem kindOfCode_eq {k : Nat} (h : k ≤ 1) : kindOfCode k = some (if k = 1 then .tooth else .knockRaw) := by
  obtain rfl | rfl : k = 0 ∨ k = 1 := by omega
  · rfl
  · rfl

theorem modeOfCode_eq {m : Nat} (h : m ≤ 1) : modeOfCode m = some (if m = 1 then .repeating else .once) := by
  obtain rfl | rfl : m = 0 ∨ m = 1 := by omega
  · rfl
  · rfl

theorem kindOfCode_none {k : Nat} (h : 1 < k) : kindOfCode k = none := by
  unfold kindOfCode
  split <;> [omega; omega; rfl]

theorem modeOfCode_none {m : Nat} (h : 1 < m) : modeOfCode m = none := by
  unfold modeOfCode
  split <;> [omega; omega; rfl]

/-- R158: the request of a payload in range. -/
theorem requestOf_valid {p : Port} {k target n named m : Byte} (hk : k.toNat ≤ 1) (hm : m.toNat ≤ 1)
    (low : k.toNat = 1 ∨ target.toNat ≠ 0) (high : target.toNat ≤ 6) (hn : n.toNat ≠ 0) (fits : conditionsFit named = true) :
    ∃ o : Option Cyl, o.elim 0 cylNumber = target.toNat ∧
      requestOf p [k, target, n, named, m] = some
        { handle := 0, port := p, kind := if k.toNat = 1 then .tooth else .knockRaw, target := o
          count := min (if k.toNat = 1 then 32 else 16) n.toNat, named := named, latched := 0
          mode := if m.toNat = 1 then .repeating else .once, state := .waiting } := by
  have kind : kindOfCode (u8 [k, target, n, named, m] 0) = some (if k.toNat = 1 then .tooth else .knockRaw) := kindOfCode_eq hk
  have mode : modeOfCode (u8 [k, target, n, named, m] 4) = some (if m.toNat = 1 then .repeating else .once) := modeOfCode_eq hm
  obtain ⟨o, ho, number⟩ := targetOf_valid (k := if k.toNat = 1 then .tooth else .knockRaw) (v := target.toNat)
    (low.imp_left fun h => if_pos h) high
  have count : (if k.toNat = 1 then CapKind.tooth else .knockRaw).maxCount = if k.toNat = 1 then 32 else 16 := by
    split <;> rfl
  refine ⟨o, number, ?_⟩
  unfold requestOf
  rw [kind, mode]
  dsimp only
  rw [show targetOf _ (u8 [k, target, n, named, m] 1) = some o from ho]
  dsimp only
  rw [show ([k, target, n, named, m].getD 3 0) = named from rfl, fits, show u8 [k, target, n, named, m] 2 = n.toNat from rfl,
    if_neg (by simp [hn]), count]

/-- R158: a payload with a field out of range. -/
theorem requestOf_none {p : Port} {k target n named m : Byte}
    (bad : 1 < k.toNat ∨ 1 < m.toNat ∨ (k.toNat = 0 ∧ target.toNat = 0) ∨ 6 < target.toNat ∨ n.toNat = 0 ∨ conditionsFit named = false) :
    requestOf p [k, target, n, named, m] = none := by
  unfold requestOf
  split
  · next kind mode hk hm =>
    have low : k.toNat ≤ 1 := Nat.not_lt.mp fun h => nomatch hk.symm.trans (kindOfCode_none h)
    have hm' : m.toNat ≤ 1 := Nat.not_lt.mp fun h => nomatch hm.symm.trans (modeOfCode_none h)
    split
    · next o ho =>
      have inRange : ¬ ((kind = .knockRaw ∧ target.toNat = 0) ∨ 6 < target.toNat) := fun h => nomatch ho.symm.trans (targetOf_none h)
      refine if_pos ?_
      have kind' : kind = if k.toNat = 1 then .tooth else .knockRaw := Option.some.inj (hk.symm.trans (kindOfCode_eq low))
      show (decide (n.toNat = 0) || !conditionsFit named) = true
      obtain h | h | ⟨zero, none⟩ | h | h | h := bad
      · omega
      · omega
      · exact absurd (.inl ⟨by rw [kind', zero]; rfl, none⟩) inRange
      · exact absurd (.inr h) inRange
      · simp [h]
      · simp [h]
    · rfl
  · rfl

/-! ### The handle (R159) -/

/-- As many requests hold handles as numbers from `h` on are taken. -/
theorem Cap.taken_count {c : Cap} {h n : Nat} (h1 : 1 ≤ h) (h2 : h ≤ 255) (hn : n ≤ 255)
    (all : ∀ j, j < n → c.taken (handleAfter^[j] h) = true) : n ≤ c.requests.length := by
  have inj : Function.Injective fun i : Fin n => handleAfter^[(i : Nat)] h := by
    intro i j e
    have := i.isLt
    have := j.isLt
    simp only [handleAfter_iterate h1 h2] at e
    omega
  have sub : (Finset.univ.image fun i : Fin n => handleAfter^[(i : Nat)] h) ⊆ (c.requests.map (·.handle)).toFinset := by
    intro x hx
    obtain ⟨i, -, rfl⟩ := Finset.mem_image.mp hx
    obtain ⟨q, hq, e⟩ := List.any_eq_true.mp (all i i.isLt)
    exact List.mem_toFinset.mpr (List.mem_map.mpr ⟨q, hq, by simpa using e⟩)
  have count := (Finset.card_le_card sub).trans (List.toFinset_card_le _)
  rwa [Finset.card_image_of_injective _ inj, Finset.card_univ, Fintype.card_fin, List.length_map] at count

/-- The search passes over taken numbers only. -/
theorem Cap.freeFrom_passes (c : Cap) (k h : Nat) :
    ∃ i, i ≤ k ∧ c.freeFrom k h = handleAfter^[i] h ∧ ∀ j, j < i → c.taken (handleAfter^[j] h) = true := by
  induction k generalizing h with
  | zero => exact ⟨0, Nat.le_refl _, rfl, fun j hj => absurd hj (Nat.not_lt_zero _)⟩
  | succ k ih =>
    unfold Cap.freeFrom
    split
    · next first =>
      obtain ⟨i, hi, e, passed⟩ := ih (handleAfter h)
      refine ⟨i + 1, Nat.succ_le_succ hi, e, fun j hj => ?_⟩
      cases j with
      | zero => exact first
      | succ j => exact passed j (Nat.lt_of_succ_lt_succ hj)
    · exact ⟨0, Nat.zero_le _, rfl, fun j hj => absurd hj (Nat.not_lt_zero _)⟩

/-! ### The placed request and its grant (R159, R162) -/

/-- R159: the request at the newest end of the list. -/
def State.placed (s : State) (r : Request) : State :=
  { s with cap := { s.cap with requests := s.cap.requests ++ [r], nextHandle := handleAfter r.handle } }

theorem Cap.atLimit_iff (c : Cap) (p : Port) :
    c.atLimit p = true ↔ 6 ≤ c.requests.length ∨ 2 ≤ (c.requests.filter fun r => decide (r.port = p)).length := by
  rw [Cap.atLimit, Bool.or_eq_true, decide_eq_true_iff, decide_eq_true_iff, List.countP_eq_length_filter]

/-- The request that a payload places, with its handle and what is latched at once. -/
theorem latch_placed (s : State) {r : Request} (waiting : r.state = .waiting) (none : r.latched = 0) (h : Nat) :
    Request.latch (armConds s) { r with handle := h } =
      { r with handle := h, latched := armConds s &&& r.named
               state := if armConds s &&& r.named = r.named then .triggered else .waiting } := by
  rw [Request.latch_waiting (by exact waiting)]
  dsimp only
  rw [none, show (0 : Byte) ||| (armConds s &&& r.named) = armConds s &&& r.named from BitVec.zero_or]

/-- R159: an accepted request, its grant and its answer. -/
theorem exec_captureRequest {p : Port} (ready : s.ready p) {k target n named m : Byte} {r : Request}
    (hr : requestOf p [k, target, n, named, m] = some r) (room : s.cap.atLimit p = false) (t : Stamp) :
    let x := (s.taken p t).placed (Request.latch (armConds s) { r with handle := s.cap.newHandle })
    exec (.captureRequest t p [k, target, n, named, m]) s = .next ((x.grant t).withResponse p
      ⟨.ok, [BitVec.ofNat 8 s.cap.newHandle, BitVec.ofNat 8 r.count, BitVec.ofNat 8 ((x.grant t).cap.stateAfter s.cap.newHandle)]⟩) := by
  intro x
  have accept : (s.taken p t).acceptRequest t r = x.grant t := by
    unfold State.acceptRequest
    simp only [x, State.placed, Request.latch_handle]
    rfl
  show execCaptureRequest t p [k, target, n, named, m] s = _
  rw [execCaptureRequest, request_served ready (n := 5) rfl (by decide)]
  unfold serveCaptureRequest
  rw [hr]
  dsimp only
  rw [show (s.taken p t).cap.atLimit p = false from room, if_neg (by decide), accept]
  rfl

/-- R162: a FREE unit of which no request is TRIGGERED grants the one that enters TRIGGERED. -/
theorem State.placed_granted (quiet : ∀ q ∈ s.cap.requests, q.state ≠ .triggered) {r : Request}
    (distinct : ((s.cap.requests ++ [r]).map (·.handle)).Nodup) (free : s.cap.unit = .free) (triggered : r.state = .triggered) (t : Stamp) :
    (s.placed r).grant t = (s.placed r).grantedTo t r := by
  have made : GrantMade t (s.placed r) ((s.placed r).grant t) := State.grant_made distinct t
  have member : r ∈ (s.placed r).cap.requests := List.mem_append_right _ (List.mem_singleton_self r)
  obtain ⟨g, takes, granted⟩ := made.2 free ⟨r, member, triggered⟩
  have chosen : g = r := by
    obtain old | new := List.mem_append.mp takes.mem
    · exact absurd takes.1 (quiet g old)
    · exact List.mem_singleton.mp new
  rw [granted, chosen]

/-- The granted request is the one that becomes ACTIVE. -/
theorem activated_append {l : List Request} {r : Request} (fresh : ∀ q ∈ l, q.handle ≠ r.handle) :
    ((l ++ [r]).map fun q => if q.handle = r.handle then { q with state := .active } else q) = l ++ [{ r with state := .active }] := by
  rw [List.map_append]
  refine congrArg₂ _ ((List.map_congr_left fun q hq => if_neg (fresh q hq)).trans (List.map_id _)) ?_
  exact congrArg (fun q => [q]) (if_pos rfl)

theorem State.grant_length (s : State) (t : Stamp) : (s.grant t).cap.requests.length = s.cap.requests.length := by
  have kept := congrArg List.length (s.grant_list t).1
  rwa [List.length_map, List.length_map] at kept

theorem State.placed_distinct (distinct : (s.cap.requests.map (·.handle)).Nodup) {r : Request}
    (fresh : ∀ q ∈ s.cap.requests, q.handle ≠ r.handle) : ((s.cap.requests ++ [r]).map (·.handle)).Nodup := by
  rw [List.map_append, List.nodup_append]
  refine ⟨distinct, List.nodup_singleton _, fun a ha b hb => ?_⟩
  obtain ⟨q, hq, rfl⟩ := List.mem_map.mp ha
  obtain rfl := List.mem_singleton.mp hb
  exact fresh q hq

/-- A request that waits, or that enters while the unit is in use, is not granted. -/
theorem State.placed_quiet (agrees : CaptureAgrees s) {r : Request} (h : s.cap.unit ≠ .free ∨ r.state ≠ .triggered) (t : Stamp) :
    (s.placed r).grant t = s.placed r := by
  by_cases free : s.cap.unit = .free
  · refine State.grant_idle (fun q hq => ?_) t
    obtain old | new := List.mem_append.mp hq
    · exact agrees.granted free q old
    · rw [List.mem_singleton.mp new]
      exact h.resolve_left (fun x => x free)
  · exact State.grant_busy (s := s.placed r) free t

/-- R162, R165: the unit granted to the request that enters. -/
def Cap.grantedNew (c : Cap) (r : Request) : Cap :=
  { c with
    requests := c.requests ++ [{ r with state := .active }], nextHandle := handleAfter r.handle
    unit := .filling, active := some r.handle, mem := ⟨[]⟩, recorded := 0, started := false, window := none }

theorem State.placed_grantedTo {r : Request} (fresh : ∀ q ∈ s.cap.requests, q.handle ≠ r.handle) (t : Stamp) :
    (s.placed r).grantedTo t r =
      if r.kind = .tooth ∨ ∃ c ∈ allCyls, r.target = some c ∧ s.cfg.active.hasCyl c = true then
        { s with cap := s.cap.grantedNew r }
      else State.captureHeld { s with cap := s.cap.grantedNew r } t { r with state := .active } .truncated := by
  have list := activated_append fresh
  unfold State.grantedTo State.placed
  dsimp only
  rw [list]
  rfl

/-- A KNOCK_RAW target named by number is in the run list when the cylinder of that number is. -/
theorem target_runs {o : Option Cyl} {n : Nat} (number : o.elim 0 cylNumber = n) (img : Image) :
    (∃ c ∈ allCyls, o = some c ∧ img.hasCyl c = true) ↔ ∃ c, cylNumber c = n ∧ img.hasCyl c = true := by
  constructor
  · rintro ⟨c, -, rfl, runs⟩
    exact ⟨c, number, runs⟩
  · rintro ⟨c, rfl, runs⟩
    cases o with
    | none => exact absurd number.symm (Nat.ne_of_gt (cylNumber_range c).1)
    | some c' =>
      have same : c' = c := Option.some.inj ((cylOfNumber_cylNumber c').symm.trans
        ((congrArg cylOfNumber number).trans (cylOfNumber_cylNumber c)))
      exact ⟨c, by cases c <;> decide, by rw [same], runs⟩

/-- Settles O44: the tests, the placed request with its handle, and the four ways it stands in the list. -/
theorem captureRequest : Obligations.CaptureRequest := by
  intro t p k target n named m s ready tooth bad full count now runs cmd
  have limit : s.cap.atLimit p = true ↔ full := Cap.atLimit_iff _ _
  have refused : requestOf p [k, target, n, named, m] = none → exec cmd s = .next (s.answered p t ⟨.badValue, []⟩) := by
    intro none
    show execCaptureRequest t p [k, target, n, named, m] s = _
    refine congrArg _ (request_refused ready (n := 5) rfl (by decide) ?_)
    unfold serveCaptureRequest
    rw [none]
  have fits : ¬ bad → conditionsFit named = true := fun valid => by
    rw [conditionsFit_iff]
    refine ⟨fun h => valid (.inr (.inr (.inr (.inr (.inr (.inl h)))))), fun h => ?_⟩
    by_contra other
    exact valid (.inr (.inr (.inr (.inr (.inr (.inr ⟨h, other⟩))))))
  have valid : ¬ bad → ∃ o : Option Cyl, o.elim 0 cylNumber = target.toNat ∧
      requestOf p [k, target, n, named, m] = some
        { handle := 0, port := p, kind := if k.toNat = 1 then .tooth else .knockRaw, target := o
          count := min (if k.toNat = 1 then 32 else 16) n.toNat, named := named, latched := 0
          mode := if m.toNat = 1 then .repeating else .once, state := .waiting } := by
    intro h
    have conditions := fits h
    simp only [bad, not_or, not_and] at h
    obtain ⟨hk, hm, low, high, hn, -, -⟩ := h
    exact requestOf_valid (Nat.not_lt.mp hk) (Nat.not_lt.mp hm) (by omega) (Nat.not_lt.mp high) hn conditions
  refine ⟨fun h => refused (requestOf_none ?_), fun h atLimit => ?_, fun h room => ?_, fun h room agrees => ?_⟩
  · obtain h | h | h | h | h | h | ⟨h, other⟩ := h
    · exact .inl h
    · exact .inr (.inl h)
    · exact .inr (.inr (.inl h))
    · exact .inr (.inr (.inr (.inl h)))
    · exact .inr (.inr (.inr (.inr (.inl h))))
    · refine .inr (.inr (.inr (.inr (.inr ?_))))
      rw [h]
      decide
    · refine .inr (.inr (.inr (.inr (.inr ?_))))
      rw [← Bool.not_eq_true, conditionsFit_iff]
      exact fun x => other (x.2 h)
  · obtain ⟨o, _, placed⟩ := valid h
    show execCaptureRequest t p [k, target, n, named, m] s = _
    refine congrArg _ (request_refused ready (n := 5) rfl (by decide) ?_)
    unfold serveCaptureRequest
    rw [placed]
    exact if_pos (limit.mpr atLimit)
  · obtain ⟨o, _, placed⟩ := valid h
    have room' : s.cap.atLimit p = false := Bool.eq_false_iff.mpr fun x => room (limit.mp x)
    refine ⟨_, _, exec_captureRequest ready placed room' t, congrArg PortState.buffer (PerPort.get_set_same ..), ?_⟩
    exact (State.grant_length _ t).trans List.length_append
  · intro numbered
    obtain ⟨o, number, placed⟩ := valid h
    obtain ⟨some, alone⟩ := (conditionsFit_iff named).mp (fits h)
    have room' : s.cap.atLimit p = false := Bool.eq_false_iff.mpr fun x => room (limit.mp x)
    have rule := exec_captureRequest ready placed room' t
    obtain ⟨next1, next2⟩ := agrees.next
    obtain ⟨i, _, hi, passed⟩ := s.cap.freeFrom_passes 7 s.cap.nextHandle
    have few : i ≤ 6 := by
      have := Cap.taken_count next1 next2 (by omega) passed
      have := agrees.fits.2.1
      omega
    have handle : s.cap.newHandle = numbered i := hi.trans (handleAfter_iterate next1 next2 i)
    have fresh := Cap.newHandle_free agrees.next agrees.fits.2.1
    have after : handleAfter s.cap.newHandle = if s.cap.newHandle = 255 then 1 else s.cap.newHandle + 1 := by
      have := Cap.newHandle_range next1 next2
      unfold handleAfter
      split <;> split <;> omega
    have taken : ∀ j, j < i → ∃ q ∈ s.cap.requests, q.handle = numbered j := by
      intro j hj
      obtain ⟨q, hq, e⟩ := List.any_eq_true.mp (passed j hj)
      rw [handleAfter_iterate next1 next2, decide_eq_true_iff] at e
      exact ⟨q, hq, e⟩
    rw [latch_placed s rfl rfl] at rule
    dsimp only at rule
    have kind : (if k.toNat = 1 then CapKind.tooth else .knockRaw) = if tooth then .tooth else .knockRaw := by simp [tooth]
    have counted : min (if k.toNat = 1 then 32 else 16) n.toNat = count := by simp [tooth, count]
    have armed : armConds s &&& named = named ↔ now := armed_iff s some alone
    rw [counted] at rule
    rw [handle] at rule fresh after
    let r : ReqState → Byte → Request := fun state latched =>
      { handle := numbered i, port := p, kind := if k.toNat = 1 then .tooth else .knockRaw, target := o, count := count, named := named
        latched := latched, mode := if m.toNat = 1 then .repeating else .once, state := state }
    have agrees' : CaptureAgrees (s.taken p t) := Cap.Listed.agrees (s := s.taken p t) agrees.listed agrees.granted
    have distinct : ∀ state latched, ((s.cap.requests ++ [r state latched]).map (·.handle)).Nodup :=
      fun _ _ => State.placed_distinct agrees.distinct fresh
    have code : ∀ state latched, ((s.taken p t).placed (r state latched)).cap.stateAfter (numbered i) = state.code :=
      fun state latched => Cap.stateAfter_mem (q := r state latched) (distinct state latched) (List.mem_append_right _ (List.mem_singleton_self (r state latched)))
    by_cases now' : now
    · rw [if_pos (armed.mpr now'), armed.mpr now'] at rule
      by_cases free : s.cap.unit = .free
      · have granted := (State.placed_granted (s := s.taken p t) (agrees.granted free) (distinct .triggered named) free rfl t).trans
          (State.placed_grantedTo (s := s.taken p t) (r := r .triggered named) fresh t)
        have code' : ((s.taken p t).cap.grantedNew (r .triggered named)).stateAfter (numbered i) = 2 :=
          Cap.stateAfter_mem (q := r .active named) (distinct .active named) (List.mem_append_right _ (List.mem_singleton_self (r .active named)))
        have inList : (∃ c ∈ allCyls, o = Option.some c ∧ s.cfg.active.hasCyl c = true) ↔ runs := target_runs number _
        refine ⟨i, numbered i, r .active named, few, rfl, fresh, taken, rfl, rfl, kind, number, rfl, rfl, rfl,
          fun x => absurd now' x, fun _ x => absurd free x, fun _ _ ends => ⟨rfl, rfl, ?_⟩, fun _ _ raw out => ⟨rfl, rfl, ?_⟩⟩
        · rw [if_pos (by
            refine ends.imp (fun x => ?_) (fun x => inList.mpr x)
            exact if_pos (of_decide_eq_true x))] at granted
          rw [rule, granted, code', ← after]
          rfl
        · have outside : ¬ ((r .triggered named).kind = .tooth ∨
              ∃ c ∈ allCyls, (r .triggered named).target = Option.some c ∧ (s.taken p t).cfg.active.hasCyl c = true) := by
            rintro (x | x)
            · rw [show (r .triggered named).kind = _ from kind, raw] at x
              exact nomatch x
            · exact out (inList.mp x)
          rw [if_neg outside] at granted
          rw [rule, granted, show (State.captureHeld { s.taken p t with cap := (s.taken p t).cap.grantedNew (r .triggered named) } t
              { r .triggered named with state := .active } .truncated).cap.stateAfter (numbered i) = 2 from code', ← after]
          rfl
      · refine ⟨i, numbered i, r .triggered named, few, rfl, fresh, taken, rfl, rfl, kind, number, rfl, rfl, rfl,
          fun x => absurd now' x, fun _ _ => ⟨rfl, rfl, ?_⟩, fun _ x => absurd x free, fun _ x => absurd x free⟩
        rw [rule, State.placed_quiet agrees' (.inl free), code .triggered named, ← after]
        rfl
    · have bit : named.getLsbD 0 = false := Bool.eq_false_iff.mpr fun b => now' (.inl (alone b))
      rw [if_neg (fun x => now' (armed.mp x)), armed_latches s bit] at rule
      refine ⟨i, numbered i, r .waiting (if s.adec.sync = .fullSync then named &&& 2#8 else 0), few, rfl, fresh, taken, rfl, rfl, kind,
        number, rfl, rfl, rfl, fun _ => ⟨rfl, rfl, ?_⟩, fun x => absurd x now', fun x => absurd x now', fun x => absurd x now'⟩
      rw [rule, State.placed_quiet agrees' (.inr ReqState.noConfusion), code .waiting _, ← after]
      rfl

end Sys2Proof.Machine
end

section
/-! PROOFS. The staging writes (sections 2.7, 10.1 and 10.2): O49. -/

namespace Sys2Proof.Machine

variable {s : State}

/-! ### Bytes and masks -/

theorem byte_eq_iff {b : Byte} {n : Nat} (small : n < 256) : b = BitVec.ofNat 8 n ↔ b.toNat = n := by
  rw [← BitVec.toNat_inj, BitVec.toNat_ofNat, Nat.mod_eq_of_lt small]

theorem maskCount_eq (n mask : Nat) : maskCount n mask = ((List.range n).filter fun i => mask.testBit i).length :=
  List.countP_eq_length_filter

/-- A number of four bytes is sent as those bytes. -/
theorem beBytes_quad (v3 v2 v1 v0 : Byte) :
    beBytes 4 (((v3.toNat * 256 + v2.toNat) * 256 + v1.toNat) * 256 + v0.toNat) = [v3, v2, v1, v0] := by
  have := v3.isLt
  have := v2.isLt
  have := v1.isLt
  have := v0.isLt
  have at3 : BitVec.ofNat 8 ((((v3.toNat * 256 + v2.toNat) * 256 + v1.toNat) * 256 + v0.toNat) / 256 ^ 3) = v3 :=
    ((byte_eq_iff (by omega)).mpr (by omega)).symm
  have at2 : BitVec.ofNat 8 ((((v3.toNat * 256 + v2.toNat) * 256 + v1.toNat) * 256 + v0.toNat) / 256 ^ 2) = v2 :=
    BitVec.eq_of_toNat_eq (by rw [BitVec.toNat_ofNat]; omega)
  have at1 : BitVec.ofNat 8 ((((v3.toNat * 256 + v2.toNat) * 256 + v1.toNat) * 256 + v0.toNat) / 256 ^ 1) = v1 :=
    BitVec.eq_of_toNat_eq (by rw [BitVec.toNat_ofNat]; omega)
  have at0 : BitVec.ofNat 8 ((((v3.toNat * 256 + v2.toNat) * 256 + v1.toNat) * 256 + v0.toNat) / 256 ^ 0) = v0 :=
    BitVec.eq_of_toNat_eq (by rw [BitVec.toNat_ofNat]; omega)
  rw [beBytes, beBytes, beBytes, beBytes, beBytes, at3, at2, at1, at0]

theorem u32_eq (k v3 v2 v1 v0 : Byte) :
    u32 [k, v3, v2, v1, v0] 1 = ((v3.toNat * 256 + v2.toNat) * 256 + v1.toNat) * 256 + v0.toNat := by
  show (v3.toNat * 256 + v2.toNat) * 65536 + (v1.toNat * 256 + v0.toNat) = _
  omega

/-! ### The ranges of the items (section 10.1) -/

/-- R176: the item number and the value of an item in range. -/
theorem itemInRange_iff {k v : Nat} :
    itemInRange k v = true ↔ (itemBounds k).1 ≤ v ∧ v ≤ (itemBounds k).2 ∧ (k = 1 → v ∈ nPosValues) := by
  rw [itemInRange, Bool.and_eq_true, Bool.and_eq_true, Bool.or_eq_true, decide_eq_true_eq, decide_eq_true_eq, decide_eq_true_eq,
    List.contains_iff_mem, ne_eq, ← imp_iff_not_or, and_assoc]

theorem itemBounds_beyond {k : Nat} (h : k = 0 ∨ 33 < k) : itemBounds k = (1, 0) := by
  unfold itemBounds
  split <;> first | omega | rfl

theorem itemInRange_number {k v : Nat} (h : itemInRange k v = true) : 1 ≤ k ∧ k ≤ 33 := by
  obtain ⟨low, high, -⟩ := itemInRange_iff.mp h
  by_contra out
  rw [itemBounds_beyond (by omega)] at low high
  omega

theorem Image.item_setItem {img : Image} {k v i : Nat} (h1 : 1 ≤ k) (h2 : k ≤ 33) (i1 : 1 ≤ i) :
    (img.setItem k v).item i = if i = k then v else img.item i := by
  show vget 0 (vset img.items (k - 1) v) (i - 1) = _
  split
  · next same => rw [same, vget_vset_same _ _ _ (by omega)]
  · exact vget_vset_ne _ _ _ (by omega)

/-! ### The fields of a row (R25, R38) -/

/-- R25: the values a field of a row takes. -/
def RowFits (field v : Nat) : Prop :=
  (field = 0 ∧ 1 ≤ v ∧ v ≤ 6) ∨ (field = 1 ∧ v ≤ 1) ∨ (field = 2 ∧ v ≤ 2880) ∨ (field = 3 ∧ 16 ≤ v ∧ v ≤ 2880) ∨
  (field = 4 ∧ v ≤ 5760) ∨ (field = 5 ∧ (v = 0 ∨ (16 ≤ v ∧ v ≤ 2880))) ∨ (field = 6 ∧ v ∈ [1, 2, 4, 8, 16, 32]) ∨
  (field = 7 ∧ v ≤ 1)

/-- R38: what a write of one field makes of a row. -/
structure RowWritten (x y : Row) (field v : Nat) : Prop where
  cyl : field = 0 → y = { x with cyl := y.cyl } ∧ cylNumber y.cyl = v
  sensor : field = 1 → y = { x with sensor := y.sensor } ∧ y.sensor.number = v
  knockStart : field = 2 → y = { x with knockStart := v }
  knockLen : field = 3 → y = { x with knockLen := v }
  guardStart : field = 4 → y = { x with guardStart := v }
  guardLen : field = 5 → y = { x with guardLen := v }
  initGain : field = 6 → y = { x with initGain := y.initGain } ∧ y.initGain.value = v
  autoRange : field = 7 → y = { x with autoRange := decide (v = 1) }

theorem cylOfNumber_fits {v : Nat} (h : 1 ≤ v ∧ v ≤ 6) : ∃ c, cylOfNumber v = some c ∧ cylNumber c = v := by
  obtain ⟨low, high⟩ := h
  interval_cases v
  · exact ⟨.c1, rfl, rfl⟩
  · exact ⟨.c2, rfl, rfl⟩
  · exact ⟨.c3, rfl, rfl⟩
  · exact ⟨.c4, rfl, rfl⟩
  · exact ⟨.c5, rfl, rfl⟩
  · exact ⟨.c6, rfl, rfl⟩

theorem sensorOfNumber_fits {v : Nat} (h : v ≤ 1) : ∃ σ, sensorOfNumber v = some σ ∧ σ.number = v := by
  interval_cases v
  · exact ⟨.ks0, rfl, rfl⟩
  · exact ⟨.ks1, rfl, rfl⟩

theorem sensorOfNumber_none {v : Nat} (h : ¬ v ≤ 1) : sensorOfNumber v = none := by
  unfold sensorOfNumber
  split <;> first | omega | rfl

theorem gainOfValue_fits {v : Nat} (h : v ∈ [1, 2, 4, 8, 16, 32]) : ∃ g, gainOfValue v = some g ∧ g.value = v := by
  simp only [List.mem_cons, List.not_mem_nil, or_false] at h
  obtain rfl | rfl | rfl | rfl | rfl | rfl := h
  · exact ⟨.g1, rfl, rfl⟩
  · exact ⟨.g2, rfl, rfl⟩
  · exact ⟨.g4, rfl, rfl⟩
  · exact ⟨.g8, rfl, rfl⟩
  · exact ⟨.g16, rfl, rfl⟩
  · exact ⟨.g32, rfl, rfl⟩

theorem gainOfValue_none {v : Nat} (h : v ∉ [1, 2, 4, 8, 16, 32]) : gainOfValue v = none := by
  simp only [List.mem_cons, List.not_mem_nil, or_false] at h
  unfold gainOfValue
  split <;> first | omega | rfl

theorem within_fits {lo hi v : Nat} (h : lo ≤ v ∧ v ≤ hi) : within lo hi v = some v := if_pos h

theorem within_none {lo hi v : Nat} (h : ¬ (lo ≤ v ∧ v ≤ hi)) : within lo hi v = none := if_neg h

/-- R25, R38: a field number and a value in range write that field alone. -/
theorem Row.write_fits {field v : Nat} (h : RowFits field v) (x : Row) :
    ∃ y, x.write field v = some y ∧ RowWritten x y field v := by
  obtain ⟨rfl, fit⟩ | ⟨rfl, fit⟩ | ⟨rfl, fit⟩ | ⟨rfl, fit⟩ | ⟨rfl, fit⟩ | ⟨rfl, fit⟩ | ⟨rfl, fit⟩ | ⟨rfl, fit⟩ := h
  · obtain ⟨c, hc, number⟩ := cylOfNumber_fits fit
    exact ⟨{ x with cyl := c }, congrArg (Option.map _) hc, by constructor <;> simp [number]⟩
  · obtain ⟨σ, hσ, number⟩ := sensorOfNumber_fits fit
    exact ⟨{ x with sensor := σ }, congrArg (Option.map _) hσ, by constructor <;> simp [number]⟩
  · exact ⟨{ x with knockStart := v }, congrArg (Option.map _) (within_fits ⟨Nat.zero_le _, fit⟩), by constructor <;> simp⟩
  · exact ⟨{ x with knockLen := v }, congrArg (Option.map _) (within_fits fit), by constructor <;> simp⟩
  · exact ⟨{ x with guardStart := v }, congrArg (Option.map _) (within_fits ⟨Nat.zero_le _, fit⟩), by constructor <;> simp⟩
  · refine ⟨{ x with guardLen := v }, ?_, by constructor <;> simp⟩
    by_cases zero : v = 0
    · rw [zero]
      rfl
    · exact (if_neg zero).trans (congrArg (Option.map _) (within_fits (fit.resolve_left zero)))
  · obtain ⟨g, hg, number⟩ := gainOfValue_fits fit
    exact ⟨{ x with initGain := g }, congrArg (Option.map _) hg, by constructor <;> simp [number]⟩
  · exact ⟨{ x with autoRange := decide (v = 1) }, congrArg (Option.map _) (within_fits ⟨Nat.zero_le _, fit⟩), by constructor <;> simp⟩

/-- R25, R38: any other field number or value is out of range. -/
theorem Row.write_none {field v : Nat} (h : ¬ RowFits field v) (x : Row) : x.write field v = none := by
  unfold RowFits at h
  push Not at h
  obtain ⟨h0, h1, h2, h3, h4, h5, h6, h7⟩ := h
  unfold Row.write
  split
  · rw [cylOfNumber_none.mpr (by have := h0 rfl; omega), Option.map_none]
  · rw [sensorOfNumber_none (by have := h1 rfl; omega), Option.map_none]
  · rw [within_none (by have := h2 rfl; omega), Option.map_none]
  · rw [within_none (by have := h3 rfl; omega), Option.map_none]
  · rw [within_none (by have := h4 rfl; omega), Option.map_none]
  · have out := h5 rfl
    rw [if_neg out.1, within_none (by omega), Option.map_none]
  · rw [gainOfValue_none (h6 rfl), Option.map_none]
  · rw [within_none (by have := h7 rfl; omega), Option.map_none]
  · rfl

/-- R38: a mask, a field or a value out of range writes nothing. -/
theorem Image.writeRows_none {mask field v : Nat} (h : mask = 0 ∨ 4096 ≤ mask ∨ ¬ RowFits field v) (img : Image) :
    img.writeRows mask field v = none := by
  refine if_pos ?_
  obtain zero | high | out := h
  · simp [zero]
  · simp [high]
  · simp [Row.write_none out]

/-- R38: the rows of the mask are written, and the others stay. -/
theorem Image.writeRows_fits {mask field v : Nat} (nonzero : mask ≠ 0) (low : mask < 4096) (fit : RowFits field v) (img : Image) :
    ∃ new : Image, img.writeRows mask field v = some new ∧ new = { img with rows := new.rows } ∧
      ∀ r, r < 12 → (mask.testBit r = false → new.row r = img.row r) ∧
        (mask.testBit r = true → RowWritten (img.row r) (new.row r) field v) := by
  obtain ⟨first, written, -⟩ := Row.write_fits fit (img.row 0)
  refine ⟨_, if_neg (by simp [nonzero, written]; omega), rfl, fun r hr => ?_⟩
  have own : ∀ rows, Image.row { img with rows := vmapIdx rows img.rows } r = rows r (img.row r) :=
    fun rows => vget_vmapIdx _ _ rows img.rows hr
  rw [own]
  constructor
  · intro clear
    rw [clear]
    rfl
  · intro set
    obtain ⟨y, hy, is⟩ := Row.write_fits fit (img.row r)
    rw [set, hy]
    exact is

/-! ### The entries of a table (R177) -/

theorem vget_writeMisfire {b l : Nat} (hb : b < 16) (hl : l < 4) (speed load v : Nat) (table : Vector Nat 64) :
    vget 0 (writeMisfire speed load v table) (4 * b + l) =
      if speed.testBit b ∧ load.testBit l then v else vget 0 table (4 * b + l) := by
  rw [writeMisfire, vget_vmapIdx 0 0 _ _ (by omega), show (4 * b + l) / 4 = b by omega, show (4 * b + l) % 4 = l by omega]
  simp only [Bool.and_eq_true]

theorem vget_writeKnock {b : Nat} (hb : b < 16) (speed v : Nat) (table : Vector Nat 16) :
    vget 0 (writeKnock speed v table) b = if speed.testBit b then v else vget 0 table b := by
  rw [writeKnock, vget_vmapIdx 0 0 _ _ hb]

/-- R177: the values a misfire table takes. -/
def MisfireFits (table load v : Nat) : Prop := table ≤ 1 ∧ load ≠ 0 ∧ load ≤ 15 ∧ 1 ≤ v ∧ v ≤ 32767

/-- R177: the values a knock table takes. -/
def KnockFits (table load v : Nat) : Prop := 2 ≤ table ∧ table ≤ 3 ∧ load = 0 ∧ 256 ≤ v ∧ v ≤ 16383

theorem Image.writeTable_none {table speed load v : Nat} (h : speed = 0 ∨ ¬ (MisfireFits table load v ∨ KnockFits table load v))
    (img : Image) : img.writeTable table speed load v = none := by
  unfold MisfireFits KnockFits at h
  unfold Image.writeTable
  split
  · rfl
  · next speedSet =>
    have out := h.resolve_left speedSet
    split
    · exact if_neg (by omega)
    · exact if_neg (by omega)
    · exact if_neg (by omega)
    · exact if_neg (by omega)
    · rfl

/-- R177: a misfire table is written, and the rest of the image stays. -/
theorem Image.writeTable_misfire {table speed load v : Nat} (nonzero : speed ≠ 0) (fit : MisfireFits table load v) (img : Image) :
    ∃ (new : Image) (set : ThrSet), set.code = table ∧ img.writeTable table speed load v = some new ∧
      new.rows = img.rows ∧ new.items = img.items ∧ new.knockA = img.knockA ∧ new.knockB = img.knockB ∧
      (∀ other : ThrSet, other ≠ set → new.misfireTable other = img.misfireTable other) ∧
      new.misfireTable set = writeMisfire speed load v (img.misfireTable set) := by
  obtain ⟨number, rest⟩ := fit
  have fields : 1 ≤ load ∧ load ≤ 15 ∧ 1 ≤ v ∧ v ≤ 32767 := by omega
  obtain rfl | rfl : table = 0 ∨ table = 1 := by omega
  · refine ⟨_, .setA, rfl, (if_neg nonzero).trans (if_pos fields), rfl, rfl, rfl, rfl, ?_, rfl⟩
    rintro (- | -) ne
    · exact absurd rfl ne
    · rfl
  · refine ⟨_, .setB, rfl, (if_neg nonzero).trans (if_pos fields), rfl, rfl, rfl, rfl, ?_, rfl⟩
    rintro (- | -) ne
    · rfl
    · exact absurd rfl ne

/-- R177: a knock table is written, and the rest of the image stays. -/
theorem Image.writeTable_knock {table speed load v : Nat} (nonzero : speed ≠ 0) (fit : KnockFits table load v) (img : Image) :
    ∃ (new : Image) (set : ThrSet), set.code + 2 = table ∧ img.writeTable table speed load v = some new ∧
      new.rows = img.rows ∧ new.items = img.items ∧ new.misfireA = img.misfireA ∧ new.misfireB = img.misfireB ∧
      (∀ other : ThrSet, other ≠ set → new.knockTable other = img.knockTable other) ∧
      new.knockTable set = writeKnock speed v (img.knockTable set) := by
  obtain ⟨low, high, fields⟩ := fit
  obtain rfl | rfl : table = 2 ∨ table = 3 := by omega
  · refine ⟨_, .setA, rfl, (if_neg nonzero).trans (if_pos fields), rfl, rfl, rfl, rfl, ?_, rfl⟩
    rintro (- | -) ne
    · exact absurd rfl ne
    · rfl
  · refine ⟨_, .setB, rfl, (if_neg nonzero).trans (if_pos fields), rfl, rfl, rfl, rfl, ?_, rfl⟩
    rintro (- | -) ne
    · rfl
    · exact absurd rfl ne

/-! ### The staging writes (R175 to R177) -/

/-- R176, test 2: a staging write of its own length while a commit is pending. -/
theorem staging_pending {p : Port} (h : s.ready p) (pending : s.cfg.pendingCommit.isSome) {n : Nat} {pl : List Byte}
    (hn : pl.length = n) (small : n ≤ 250) (serve : State → State × Response) (t : Stamp) :
    takeRequest t p (ofLength n pl (unlessPending serve)) s = s.answered p t ⟨.notAllowed, []⟩ :=
  request_refused h hn small (if_pos pending)

/-- R175: an accepted staging write with its answer. -/
theorem staging_accepted {p : Port} (h : s.ready p) (free : s.cfg.pendingCommit = none) {n : Nat} {pl : List Byte}
    (hn : pl.length = n) (small : n ≤ 250) {serve : State → State × Response} {t : Stamp} {img : Image} {answer : List Byte}
    (hs : serve (s.taken p t) = ((s.taken p t).stage p img, okWith answer)) :
    takeRequest t p (ofLength n pl (unlessPending serve)) s =
      { s.answered p t ⟨.ok, answer⟩ with cfg := { s.cfg with staged := img, dirty := true, lastStaging := some p } } := by
  have idle : ¬ (s.taken p t).cfg.pendingCommit.isSome := by
    rw [show (s.taken p t).cfg = s.cfg from rfl, free]
    decide
  rw [request_served h hn small, unlessPending, if_neg idle, hs]
  rfl

/-- R176: a staging write that fails one of its tests. -/
theorem staging_refused {p : Port} (h : s.ready p) (free : s.cfg.pendingCommit = none) {n : Nat} {pl : List Byte}
    (hn : pl.length = n) (small : n ≤ 250) {serve : State → State × Response} {t : Stamp}
    (hs : serve (s.taken p t) = refuse .badValue (s.taken p t)) :
    takeRequest t p (ofLength n pl (unlessPending serve)) s = s.answered p t ⟨.badValue, []⟩ := by
  have idle : ¬ (s.taken p t).cfg.pendingCommit.isSome := by
    rw [show (s.taken p t).cfg = s.cfg from rfl, free]
    decide
  exact request_refused h hn small ((if_neg idle).trans hs)

theorem serveStageRows_none {p : Port} {pl : List Byte} (h : s.cfg.staged.writeRows (u16 pl 0) (u8 pl 2) (u16 pl 3) = none) :
    serveStageRows p pl s = refuse .badValue s := by
  rw [serveStageRows, h]

theorem serveStageRows_some {p : Port} {pl : List Byte} {img : Image}
    (h : s.cfg.staged.writeRows (u16 pl 0) (u8 pl 2) (u16 pl 3) = some img) :
    serveStageRows p pl s = (s.stage p img, okWith [byte (maskCount 12 (u16 pl 0))]) := by
  rw [serveStageRows, h]

theorem serveStageTable_none {p : Port} {pl : List Byte}
    (h : s.cfg.staged.writeTable (u8 pl 0) (u16 pl 1) (u8 pl 3) (u16 pl 4) = none) :
    serveStageTable p pl s = refuse .badValue s := by
  rw [serveStageTable, h]

theorem serveStageTable_some {p : Port} {pl : List Byte} {img : Image}
    (h : s.cfg.staged.writeTable (u8 pl 0) (u16 pl 1) (u8 pl 3) (u16 pl 4) = some img) :
    serveStageTable p pl s = (s.stage p img, okWith [byte (entriesWritten (u8 pl 0) (u16 pl 1) (u8 pl 3))]) := by
  rw [serveStageTable, h]

/-- R177: the entries written of a misfire table, and of a knock table. -/
theorem entriesWritten_misfire {table : Nat} (h : table ≤ 1) (speed load : Nat) :
    entriesWritten table speed load =
      ((List.range 16).filter fun b => speed.testBit b).length * ((List.range 4).filter fun l => load.testBit l).length := by
  rw [entriesWritten, if_pos h, maskCount_eq, maskCount_eq]

theorem entriesWritten_knock {table : Nat} (h : 2 ≤ table) (speed load : Nat) :
    entriesWritten table speed load = ((List.range 16).filter fun b => speed.testBit b).length := by
  rw [entriesWritten, if_neg (by omega), Nat.mul_one, maskCount_eq]

/-- Section 10.1: the least and the greatest value of each item but the first, in the order of their numbers. -/
def itemRanges : List (Nat × Nat × Nat) := (List.range 32).map fun i => (i + 2, itemBounds (i + 2))

theorem mem_itemRanges {k lo hi : Nat} : (k, lo, hi) ∈ itemRanges ↔ 2 ≤ k ∧ k ≤ 33 ∧ itemBounds k = (lo, hi) := by
  simp only [itemRanges, List.mem_map, List.mem_range, Prod.mk.injEq]
  constructor
  · rintro ⟨i, small, rfl, bounds⟩
    exact ⟨by omega, by omega, bounds⟩
  · rintro ⟨low, high, bounds⟩
    exact ⟨k - 2, by omega, by omega, by rwa [show k - 2 + 2 = k by omega]⟩

/-- R176: item 1 takes the listed counts, and each of the others its range. -/
theorem itemInRange_ranges {k v : Nat} :
    itemInRange k v = true ↔ (k = 1 ∧ v ∈ nPosValues) ∨ ∃ lo hi : Nat, (k, lo, hi) ∈ itemRanges ∧ lo ≤ v ∧ v ≤ hi := by
  constructor
  · intro fit
    obtain ⟨low, high⟩ := itemInRange_number fit
    obtain ⟨above, below, listed⟩ := itemInRange_iff.mp fit
    obtain first | later : k = 1 ∨ 2 ≤ k := by omega
    · exact .inl ⟨first, listed first⟩
    · exact .inr ⟨_, _, mem_itemRanges.mpr ⟨later, high, rfl⟩, above, below⟩
  · rintro (⟨rfl, listed⟩ | ⟨lo, hi, mem, above, below⟩)
    · have bounds : ∀ v ∈ nPosValues, 12 ≤ v ∧ v ≤ 60 := by decide
      exact itemInRange_iff.mpr ⟨(bounds v listed).1, (bounds v listed).2, fun _ => listed⟩
    · obtain ⟨later, -, bounds⟩ := mem_itemRanges.mp mem
      exact itemInRange_iff.mpr ⟨bounds ▸ above, bounds ▸ below, fun first => by omega⟩

/-- Settles O49: each staging write by its tests, with the image that it stages, and the table of section 10.1 item by item. -/
theorem staging : Obligations.Staging := by
  refine ⟨fun t p s ready => ⟨fun pending a b d e f g => ⟨?_, ?_, ?_⟩, fun free => ⟨fun k v3 v2 v1 v0 => ⟨?_, ?_⟩,
    fun mhi mlo field vhi vlo => ?_, fun table shi slo load vhi vlo => ?_⟩⟩, fun k v => ?_⟩
  · exact congrArg _ (staging_pending ready pending (n := 5) rfl (by decide) _ t)
  · exact congrArg _ (staging_pending ready pending (n := 5) rfl (by decide) _ t)
  · exact congrArg _ (staging_pending ready pending (n := 6) rfl (by decide) _ t)
  · intro out
    refine congrArg _ (staging_refused ready free (n := 5) rfl (by decide) (if_neg ?_))
    rw [u32_eq]
    exact Bool.eq_false_iff.mp out
  · intro fit
    obtain ⟨low, high⟩ := itemInRange_number fit
    refine ⟨s.cfg.staged.setItem k.toNat _, congrArg _ (staging_accepted ready free (n := 5) rfl (by decide) ?_), rfl,
      fun i h1 _ => Image.item_setItem low high h1⟩
    refine (if_pos ?_).trans ?_
    · rw [u32_eq]
      exact fit
    · rw [u32_eq, beBytes_quad]
      rfl
  · intro mask v fits
    have fields : fits ↔ RowFits field.toNat v := by
      simp only [fits, RowFits, ← BitVec.toNat_inj]
      rfl
    rw [fields]
    refine ⟨fun out => congrArg _ (staging_refused ready free (n := 5) rfl (by decide) ?_), fun nonzero low fit => ?_⟩
    · exact serveStageRows_none (Image.writeRows_none out s.cfg.staged)
    obtain ⟨img, written, rows, each⟩ := Image.writeRows_fits nonzero low fit s.cfg.staged
    refine ⟨img, congrArg _ (staging_accepted ready free (n := 5) rfl (by decide) ?_), rows, fun r hr => ?_⟩
    · refine (serveStageRows_some (by exact written)).trans ?_
      rw [maskCount_eq]
      rfl
    · have number {n : Nat} (small : n < 256) (h : field = BitVec.ofNat 8 n) : field.toNat = n := (byte_eq_iff small).mp h
      refine ⟨(each r hr).1, fun set => ?_⟩
      have row := (each r hr).2 set
      exact ⟨fun h => row.cyl (number (by decide) h), fun h => row.sensor (number (by decide) h),
        fun h => row.knockStart (number (by decide) h), fun h => row.knockLen (number (by decide) h),
        fun h => row.guardStart (number (by decide) h), fun h => row.guardLen (number (by decide) h),
        fun h => row.initGain (number (by decide) h), fun h => row.autoRange (number (by decide) h)⟩
  · intro speed v misfire knock
    have misfireFields : misfire ↔ MisfireFits table.toNat load.toNat v := by
      simp only [misfire, MisfireFits, ne_eq, ← BitVec.toNat_inj]
      rfl
    have knockFields : knock ↔ KnockFits table.toNat load.toNat v := by
      simp only [knock, KnockFits, ← BitVec.toNat_inj]
      rfl
    rw [misfireFields, knockFields]
    refine ⟨fun out => congrArg _ (staging_refused ready free (n := 6) rfl (by decide) ?_), fun nonzero fit => ?_,
      fun nonzero fit => ?_⟩
    · exact serveStageTable_none (Image.writeTable_none out s.cfg.staged)
    · obtain ⟨img, set, code, written, rows, items, knockA, knockB, others, entries⟩ :=
        Image.writeTable_misfire nonzero fit s.cfg.staged
      refine ⟨img, set, code, congrArg _ (staging_accepted ready free (n := 6) rfl (by decide) ?_), rows, items, knockA, knockB,
        others, fun b l hb hl => ?_⟩
      · refine (serveStageTable_some (by exact written)).trans ?_
        rw [entriesWritten_misfire (by exact fit.1)]
        rfl
      · rw [entries, vget_writeMisfire hb hl]
    · obtain ⟨img, set, code, written, rows, items, misfireA, misfireB, others, entries⟩ :=
        Image.writeTable_knock nonzero fit s.cfg.staged
      refine ⟨img, set, code, congrArg _ (staging_accepted ready free (n := 6) rfl (by decide) ?_), rows, items, misfireA, misfireB,
        others, fun b hb => ?_⟩
      · refine (serveStageTable_some (by exact written)).trans ?_
        rw [entriesWritten_knock (by exact fit.1)]
        rfl
      · rw [entries, vget_writeKnock hb]
  · exact itemInRange_ranges

end Sys2Proof.Machine
end

section
/-! PROOFS. COMMIT: its tests, its class and the apply at once (sections 10.5 and 10.6): O51. -/

namespace Sys2Proof.Machine

variable {s : State}

/-! ### The class (R183) -/

/-- R183: what makes a commit GEOMETRY. -/
theorem geometryDiffers_iff (a g : Image) :
    ([1, 2, 3, 4, 6, 7, 8].any (fun k => decide (g.item k ≠ a.item k)) || decide (g.slots ≠ a.slots)) = true ↔
      (∃ k ∈ [1, 2, 3, 4, 6, 7, 8], g.item k ≠ a.item k) ∨ g.slots ≠ a.slots := by
  simp only [Bool.or_eq_true, List.any_eq_true, decide_eq_true_eq]

/-- R183: what makes a commit LAYOUT, when it is not GEOMETRY. -/
theorem layoutDiffers_iff (a g : Image) :
    (decide (g.runStart ≠ a.runStart) || decide (g.runEnd ≠ a.runEnd) ||
      (List.range 12).any (fun r => (g.inRun r || a.inRun r) && decide (g.row r ≠ a.row r))) = true ↔
      g.runStart ≠ a.runStart ∨ g.runEnd ≠ a.runEnd ∨
        ∃ r, r < 12 ∧ (g.inRun r = true ∨ a.inRun r = true) ∧ g.row r ≠ a.row r := by
  simp only [Bool.or_eq_true, Bool.and_eq_true, List.any_eq_true, List.mem_range, decide_eq_true_eq, or_assoc]

theorem commitClass_geometry {a g : Image} (h : (∃ k ∈ [1, 2, 3, 4, 6, 7, 8], g.item k ≠ a.item k) ∨ g.slots ≠ a.slots) :
    commitClass a g = .geometry := if_pos ((geometryDiffers_iff a g).mpr h)

theorem not_geometryDiffers {a g : Image} (items : ∀ k ∈ [1, 2, 3, 4, 6, 7, 8], g.item k = a.item k) (slots : g.slots = a.slots) :
    ¬ ([1, 2, 3, 4, 6, 7, 8].any (fun k => decide (g.item k ≠ a.item k)) || decide (g.slots ≠ a.slots)) = true := by
  rw [geometryDiffers_iff]
  rintro (⟨k, hk, ne⟩ | ne)
  · exact ne (items k hk)
  · exact ne slots

theorem commitClass_layout {a g : Image} (items : ∀ k ∈ [1, 2, 3, 4, 6, 7, 8], g.item k = a.item k) (slots : g.slots = a.slots)
    (h : g.runStart ≠ a.runStart ∨ g.runEnd ≠ a.runEnd ∨
      ∃ r, r < 12 ∧ (g.inRun r = true ∨ a.inRun r = true) ∧ g.row r ≠ a.row r) : commitClass a g = .layout :=
  (if_neg (not_geometryDiffers items slots)).trans (if_pos ((layoutDiffers_iff a g).mpr h))

theorem commitClass_calibration {a g : Image} (items : ∀ k ∈ [1, 2, 3, 4, 6, 7, 8], g.item k = a.item k)
    (slots : g.slots = a.slots) (first : g.runStart = a.runStart) (last : g.runEnd = a.runEnd)
    (rows : ∀ r, r < 12 → (g.inRun r = true ∨ a.inRun r = true) → g.row r = a.row r) : commitClass a g = .calibration := by
  refine (if_neg (not_geometryDiffers items slots)).trans (if_neg ?_)
  rw [layoutDiffers_iff]
  rintro (ne | ne | ⟨r, hr, run, ne⟩)
  · exact ne first
  · exact ne last
  · exact ne (rows r hr run)

theorem commitClass_self (img : Image) : commitClass img img = .calibration :=
  commitClass_calibration (fun _ _ => rfl) rfl rfl rfl fun _ _ _ => rfl

/-! ### An apply of equal images changes no block (R182, R183) -/

theorem vmapIdx_id {α : Type} {n : Nat} (v : Vector α n) : vmapIdx (fun _ x => x) v = v := by
  refine Vector.ext fun i hi => ?_
  simp [vmapIdx]

theorem resetsGain_same (img : Image) (r : Nat) : resetsGain .calibration img img r = false := by
  simp [resetsGain]

theorem State.applyKfe_same (s : State) : s.applyKfe .calibration s.cfg.active = s := by
  unfold State.applyKfe
  simp only [resetsGain_same, Bool.false_eq_true, if_false, vmapIdx_id]
  rfl

theorem State.applyEffects_same (s : State) (t : Stamp) : s.applyEffects t .calibration s.cfg.active = s := by
  have adec : s.applyAdec t .calibration s.cfg.active = s := by
    unfold State.applyAdec
    rw [decide_eq_false (not_not.mpr rfl)]
    rfl
  have kna : s.applyKna .calibration s.cfg.active = s := by
    unfold State.applyKna
    dsimp only
    rw [if_neg (Nat.lt_irrefl _), if_neg (Nat.lt_irrefl _)]
    rfl
  have ops : s.applyOps s.cfg.active = s := if_neg (by simp)
  have mfa : s.applyMfa t .calibration s.cfg.active = s := by
    unfold State.applyMfa
    rw [if_pos rfl, if_neg (by simp)]
  unfold State.applyEffects
  rw [adec, show s.applySmap t .calibration = s from rfl, kna, show s.applyCyt .calibration s.cfg.active = s from if_pos rfl, ops, mfa,
    State.applyKfe_same]
  rfl

/-- R182, R183: the apply of a staged image that equals the active one. -/
theorem State.applyCommit_same (same : s.cfg.staged = s.cfg.active) (t : Stamp) (timing : CommitTiming) (p : Port) :
    s.applyCommit t ⟨timing, .calibration, p⟩ =
      { s with
        cfg := ⟨s.cfg.active, s.cfg.active, s.cfg.generation + 1, false, none, none⟩
        ports := configPorts s.ports t s.adec.cycle (s.cfg.generation + 1) p .calibration } := by
  have effects : (s.setCfg s.cfg.apply).applyEffects t .calibration s.cfg.active = s.setCfg s.cfg.apply := by
    have := (s.setCfg s.cfg.apply).applyEffects_same t
    rwa [show (s.setCfg s.cfg.apply).cfg.active = s.cfg.active from same] at this
  unfold State.applyCommit
  dsimp only
  rw [effects]
  unfold State.alertAll State.emit configPorts
  simp only [State.setPorts]
  rw [ports_config]
  show { s with cfg := s.cfg.apply, ports := _ } = _
  rw [Cfg.apply, same]
  rfl

/-! ### The answers of COMMIT (R180, R181) -/

/-- A number of 32 bits is sent as its four bytes. -/
theorem beBytes_long (w : BitVec 32) :
    beBytes 4 w.toNat = [w.extractLsb' 24 8, w.extractLsb' 16 8, w.extractLsb' 8 8, w.extractLsb' 0 8] := by
  have part (i : Nat) : BitVec.ofNat 8 (w.toNat / 256 ^ i) = w.extractLsb' (8 * i) 8 := BitVec.eq_of_toNat_eq (by
    rw [BitVec.extractLsb'_toNat, BitVec.toNat_ofNat, Nat.shiftRight_eq_div_pow, pow_mul]
    rfl)
  rw [beBytes, beBytes, beBytes, beBytes, beBytes, part, part, part, part]

theorem commitPayload_eq (cls : CommitClass) (outcome : Nat) (g : BitVec 32) :
    commitPayload cls outcome g =
      [BitVec.ofNat 8 cls.code, BitVec.ofNat 8 outcome, g.extractLsb' 24 8, g.extractLsb' 16 8, g.extractLsb' 8 8,
       g.extractLsb' 0 8] := by
  rw [commitPayload, beBytes_long]
  rfl

theorem timingOfCode_none {n : Nat} (h : 1 < n) : timingOfCode n = none := by
  unfold timingOfCode
  split <;> first | omega | rfl

theorem timingOfCode_some {n : Nat} (h : n ≤ 1) : ∃ timing, timingOfCode n = some timing ∧ (timing = .atCycle ↔ n = 1) := by
  interval_cases n
  · exact ⟨.now, rfl, by decide⟩
  · exact ⟨.atCycle, rfl, by decide⟩

/-- R180: COMMIT where a commit is pending. -/
theorem serveCommit_busy {t : Stamp} {p : Port} {pl : List Byte} {timing : CommitTiming} (ht : timingOfCode (u8 pl 0) = some timing)
    (pending : s.cfg.pendingCommit.isSome) : serveCommit t p pl s = refuse .busy s := by
  rw [serveCommit, ht]
  exact if_pos pending

/-- R180: COMMIT where none is pending, by the checks. -/
theorem serveCommit_checked {t : Stamp} {p : Port} {pl : List Byte} {timing : CommitTiming}
    (ht : timingOfCode (u8 pl 0) = some timing) (idle : s.cfg.pendingCommit = none) :
    serveCommit t p pl s =
      match failedCheck s.cfg.staged with
      | some (code, row) => (s, ⟨.badConfig, [byte code, byte row]⟩)
      | none =>
        let k : PendingCommit := ⟨timing, commitClass s.cfg.active s.cfg.staged, p⟩
        (s.acceptCommit t k, okWith (commitPayload k.cls (s.commitOutcome k) (s.acceptCommit t k).cfg.generation)) := by
  rw [serveCommit, ht]
  exact if_neg (by rw [idle]; decide)

/-- R181: COMMIT of a staged image that passes every check. -/
theorem exec_commit_accepted {t : Stamp} {p : Port} {b : Byte} (ready : s.ready p) {timing : CommitTiming}
    (ht : timingOfCode b.toNat = some timing) (idle : s.cfg.pendingCommit = none) (passes : failedCheck s.cfg.staged = none) :
    let k : PendingCommit := ⟨timing, commitClass s.cfg.active s.cfg.staged, p⟩
    let u := (s.taken p t).acceptCommit t k
    exec (.commit t p [b]) s = .next
      (u.withResponse p (okWith (commitPayload k.cls (s.commitOutcome k) u.cfg.generation))) := by
  intro k u
  have served : serveCommit t p [b] (s.taken p t) = (u, okWith (commitPayload k.cls (s.commitOutcome k) u.cfg.generation)) := by
    rw [serveCommit_checked (s := s.taken p t) (pl := [b]) ht idle, show (s.taken p t).cfg = s.cfg from rfl, passes]
    rfl
  show Host.Outcome.next (takeRequest t p (ofLength 1 [b] (serveCommit t p [b])) s) = _
  rw [request_served ready (n := 1) rfl (by decide), served]

/-- R181: the commit that is applied at once. -/
theorem exec_commit_now {t : Stamp} {p : Port} {b : Byte} (ready : s.ready p) {timing : CommitTiming}
    (ht : timingOfCode b.toNat = some timing) (idle : s.cfg.pendingCommit = none) (passes : failedCheck s.cfg.staged = none)
    (now : ¬ (timing = .atCycle ∧ s.adec.sync = .fullSync)) :
    let k : PendingCommit := ⟨timing, commitClass s.cfg.active s.cfg.staged, p⟩
    exec (.commit t p [b]) s = .next
      (((s.taken p t).applyCommit t k).withResponse p (okWith (commitPayload k.cls 0 (s.cfg.generation + 1)))) := by
  intro k
  have rule := exec_commit_accepted (t := t) ready ht idle passes
  dsimp only at rule
  have applied : (s.taken p t).acceptCommit t k = (s.taken p t).applyCommit t k := if_neg now
  have generation : ((s.taken p t).applyCommit t k).cfg.generation = s.cfg.generation + 1 := by
    rw [((s.taken p t).applyCommit_applied t k).cfg]
    rfl
  rw [rule, State.commitOutcome, if_neg now, applied, generation]

end Sys2Proof.Machine
end

section
/-! PROOFS. A pending commit at a cycle boundary and at a sync loss (section 10.6): O51. -/

namespace Sys2Proof.Machine

variable {s u v w : State} {k : PendingCommit}

/-! ### A pending commit at a sync loss (R181) -/

theorem State.applyPending_some (h : s.cfg.pendingCommit = some k) (t : Stamp) : s.applyPending t = s.applyCommit t k := by
  rw [State.applyPending, h]

/-- R181: a change of sync state that leaves FULL_SYNC applies the pending commit behind its loss events. -/
theorem State.changeSyncApply_applied {a : Adec} (full : s.adec.sync = .fullSync) (leaves : a.sync ≠ .fullSync)
    (pending : s.cfg.pendingCommit = some k) (t : Stamp) (cause : SyncCause) :
    Applied t k.cls k.port
      (State.lossEvents { s with adec := a, ports := syncPorts s.ports (syncRecord t a.cycle a.sync cause a.polarity) } t .fullSync)
      (s.changeSyncApply t a cause) := by
  have lost := s.changeSync_eq t a cause
  rw [full] at lost
  have still : (s.changeSync t a cause).cfg.pendingCommit = some k := by rw [(s.changeSync_frame t a cause).1.cfg]; exact pending
  unfold State.changeSyncApply
  rw [if_pos ⟨full, leaves⟩, State.applyPending_some still, lost]
  exact State.applyCommit_applied _ t k

/-- A command that leaves FULL_SYNC applies the pending commit to the state `v` in which its own work is done. -/
theorem exec_loss_applied {cmd : Instr} {a : Adec} {t : Stamp} {cause : SyncCause} {cycle : Half}
    (rule : exec cmd s = .next (w.changeSyncApply t a cause)) (full : w.adec.sync = .fullSync) (leaves : a.sync ≠ .fullSync)
    (pending : w.cfg.pendingCommit = some k) (named : a.cycle = cycle)
    (same : { w with adec := a, ports := v.ports } = { v with timebase := t, adec := a }) (ports : w.ports = v.ports) :
    ∃ u : State, exec cmd s = .next u ∧
      Applied t k.cls k.port
        (State.lossEvents
          { v with timebase := t, adec := a, ports := syncPorts v.ports (syncRecord t cycle a.sync cause a.polarity) } t .fullSync)
        u := by
  have applied := State.changeSyncApply_applied full leaves pending t cause
  have before : { w with adec := a, ports := syncPorts w.ports (syncRecord t a.cycle a.sync cause a.polarity) } =
      { v with timebase := t, adec := a, ports := syncPorts v.ports (syncRecord t cycle a.sync cause a.polarity) } := by
    rw [named, ports]
    exact congrArg (fun x : State => { x with ports := syncPorts v.ports (syncRecord t cycle a.sync cause a.polarity) }) same
  rw [before] at applied
  exact ⟨_, rule, applied⟩

/-- R15: the third cam fault of an edge outside the window. -/
theorem exec_camEdge_drops (h : s.running = true) (hs : s.adec.sync = .fullSync) {e : Edge} (he : CamCounts s.cfg.active e)
    (lo : s.cfg.active.camLo < 11520) (hi : s.cfg.active.camHi < 11520) {t : Stamp}
    (out : ¬ InWindow s.cfg.active.camLo s.cfg.active.camHi (s.adec.cycleAngle s.cfg.active t)) (one : s.cfg.active.camEdge ≠ 2)
    (third : 2 ≤ s.adec.camFaults) :
    exec (.camEdge t e) s = .next ((s.setTimebase t).changeSyncApply t s.adec.dropped .camFault) := by
  rw [exec_camEdge_fullSync h hs he]
  unfold State.camInFull
  dsimp only
  rw [State.setTimebase_adec, State.setTimebase_cfg, if_neg (mt (inCamWindow_iff lo hi _).mp out), if_neg one,
    if_pos (by simp only [Adec.countCamFault]; omega)]
  rfl

/-- R9: the edge that loses crank sync, with the decoder it leaves. -/
theorem exec_toothEdge_loses (h : s.running = true) (hs : s.adec.sync = .crankSync ∨ s.adec.sync = .fullSync) {e t : Stamp}
    (he : s.adec.lastEdge = some e) (accepted : s.adec.toothPeriod ≤ 4 * (t - e).toNat)
    (off : s.adec.endsGap s.cfg.active t ≠ s.adec.atGapPosition s.cfg.active) :
    exec (.crankEdge t s.toothEdge) s = .next
      (({ s with timebase := t, cap := (s.noticePeriod (t - e).toNat).cap } : State).changeSyncApply t
        { s.adec.seeking (some t) 1 with stallRef := t, syncLossTotal := min 65535 (s.adec.syncLossTotal + 1) }
        (if s.adec.endsGap s.cfg.active t then .gapMisplaced else .toothOverrun)) := by
  rw [exec_toothEdge_sync h hs, State.crankInSync_loses (s := s.setTimebase t) he accepted off, State.noticePeriod_arrived,
    State.setTimebase_adec, State.setTimebase_cfg, Adec.accept_lost he]

/-- R9: the gap test, the place and the cause of an edge that loses crank sync. -/
theorem misplaced_cause {e t : Stamp} {cause : SyncCause} (he : s.adec.lastEdge = some e)
    (h : (GapPeriod s.cfg.active.missing s.adec.period (t - e).toNat ∧
        s.adec.toothIndex + 1 + s.cfg.active.missing < s.cfg.active.nPos ∧ cause = .gapMisplaced) ∨
      (¬ GapPeriod s.cfg.active.missing s.adec.period (t - e).toNat ∧
        s.cfg.active.nPos ≤ s.adec.toothIndex + 1 + s.cfg.active.missing ∧ cause = .toothOverrun)) :
    s.adec.endsGap s.cfg.active t ≠ s.adec.atGapPosition s.cfg.active ∧
      cause = if s.adec.endsGap s.cfg.active t then .gapMisplaced else .toothOverrun := by
  have ends := Adec.endsGap_iff he s.cfg.active t
  have place := s.adec.atGapPosition_iff s.cfg.active
  obtain ⟨gap, short, rfl⟩ | ⟨plain, there, rfl⟩ := h
  · refine ⟨fun same => ?_, (if_pos (ends.mpr gap)).symm⟩
    exact absurd (place.mp (same.symm.trans (ends.mpr gap))) (Nat.not_le.mpr short)
  · refine ⟨fun same => ?_, (if_neg (mt ends.mp plain)).symm⟩
    exact plain (ends.mp (same.trans (place.mpr there)))

/-! ### A pending commit at a cycle boundary (R181) -/

/-- R15, R16: a boundary that is not the third fault is taken by the blocks before the pending commit applies. -/
theorem State.cycleBoundary_finishes (fine : w.adec.inWindow = true ∨ w.adec.camFaults < 2) {t : Stamp} (ht : w.timebase = t)
    (x : Nat) : w.cycleBoundary t x = (afterBoundary w t w.adec).finishBoundary t x := by
  unfold State.cycleBoundary
  rw [if_neg (Adec.not_thirdFault fine), State.boundary_taken w t ht]

/-- R181, R34: an apply that is no CALIBRATION, or that halts the decoder, leaves no events of the boundary tooth. -/
theorem State.finishBoundary_applies (pending : s.cfg.pendingCommit = some k) {t : Stamp} (full : s.adec.sync = .fullSync)
    (h : k.cls ≠ .calibration ∨ StallPassed t s) (x : Nat) : s.finishBoundary t x = s.applyCommit t k := by
  have applied := s.applyCommit_applied t k
  unfold State.finishBoundary State.layoutPending
  rw [pending, State.applyPending_some pending]
  dsimp only
  by_cases layout : k.cls = .layout
  · exact if_pos (decide_eq_true layout)
  · refine (if_neg (by simpa using layout)).trans (if_neg ?_)
    by_cases stall : StallPassed t s
    · rw [(applied.adecStall stall).1]
      decide
    · have geometry : k.cls = .geometry := by
        cases hk : k.cls
        · exact absurd hk (h.resolve_right stall)
        · exact absurd hk layout
        · rfl
      rw [applied.adecSeek geometry (by rw [full]; decide) stall]
      simp [Adec.seeking]

/-- R81: the events a boundary tooth still raises, as a filter over all of them. -/
theorem Image.stillDue_filter (img : Image) (moved : Bool) (lo hi : Nat) :
    img.stillDue moved lo hi = (img.eventsBetween lo hi).filter fun e => decide (moved = false ∨ e.kind ≠ .segment) := by
  cases moved
  · exact (List.filter_eq_self.mpr fun e _ => by simp).symm
  · refine (if_pos rfl).trans (List.filter_congr fun e _ => ?_)
    simp

/-- R181, R81: behind a CALIBRATION apply the boundary tooth's events follow. -/
theorem State.finishBoundary_raises (pending : s.cfg.pendingCommit = some k) {t : Stamp} (full : s.adec.sync = .fullSync)
    (calibration : k.cls = .calibration) (early : ¬ StallPassed t s) (x : Nat) :
    let u := s.applyCommit t k
    let due : Nat → Nat → List LayoutEvent := fun lo hi =>
      (s.cfg.staged.eventsBetween lo hi).filter fun e =>
        decide (s.cfg.active.segOffset = s.cfg.staged.segOffset ∨ e.kind ≠ .segment)
    s.finishBoundary t x =
      (due 0 x).foldl (State.raise t s.adec.cycle)
        ((due s.adec.nextAngle 11519).foldl (State.raise t (s.adec.cycle - 1))
          { u with adec := { u.adec with nextAngle := x + 1 } }) := by
  intro u due
  have applied : Applied t k.cls k.port s u := s.applyCommit_applied t k
  have adec := applied.adecStands (by rw [calibration]; decide) early
  rw [(applied.smapStands calibration early).2.2] at adec
  have active : u.cfg.active = s.cfg.staged := by rw [applied.cfg]
  have moves : s.movesSegments = decide (s.cfg.staged.segOffset ≠ s.cfg.active.segOffset) := by
    rw [State.movesSegments, pending]
    rfl
  have still (lo hi : Nat) : u.cfg.active.stillDue s.movesSegments lo hi = due lo hi := by
    rw [active, Image.stillDue_filter, moves]
    exact List.filter_congr fun e _ => decide_eq_decide.mpr
      (or_congr (by rw [decide_eq_false_iff_not, ne_eq, not_not, eq_comm]) Iff.rfl)
  unfold State.finishBoundary State.layoutPending
  rw [pending, State.applyPending_some pending]
  dsimp only
  refine (if_neg (by rw [calibration]; decide)).trans ((if_pos (by rw [show s.applyCommit t k = u from rfl, adec]; exact full)).trans ?_)
  unfold State.boundaryEvents
  rw [show s.applyCommit t k = u from rfl, still, still, adec]
  rfl

theorem afterBoundary_kept (w : State) (t : Stamp) (a : Adec) :
    (afterBoundary w t a).cfg = w.cfg ∧ (afterBoundary w t a).adec.sync = a.sync ∧
      (afterBoundary w t a).adec.nextAngle = a.nextAngle ∧ (afterBoundary w t a).adec.cycle = a.cycle + 1 := by
  unfold afterBoundary
  dsimp only
  split <;> exact ⟨rfl, rfl, rfl, rfl⟩

/-- R16, R181: the boundary tooth that passes the cam check, up to the pending commit. -/
theorem exec_boundary_finishes (h : s.running = true) (hs : s.adec.sync = .fullSync) {t : Stamp} {a : Adec}
    (keeps : KeepsCrankSync s t a) (wraps : a.toothAngle < s.adec.toothAngle)
    (fine : s.adec.inWindow = true ∨ s.adec.camFaults < 2) :
    let v := afterBoundary (s.edgeTaken t a) t a
    exec (.crankEdge t s.toothEdge) s = .next (v.finishBoundary t a.toothAngle) ∧ v.cfg = s.cfg ∧ v.adec.sync = .fullSync ∧
      v.adec.nextAngle = s.adec.nextAngle ∧ v.adec.cycle = s.adec.cycle + 1 := by
  intro v
  obtain ⟨e, gap, he, accepted, ends, place, ha⟩ := keeps.tooth
  obtain ⟨sync, window, faults, cycle, next, -⟩ := s.adec.tooth_kept s.cfg.active t gap
  rw [← ha] at sync window faults cycle next
  have frame := s.edgeTaken_frame t a
  have adec : (s.edgeTaken t a).adec = a := frame.adec
  have finishes := State.cycleBoundary_finishes (w := s.edgeTaken t a) (by rw [adec, window, faults]; exact fine) frame.timebase
    a.toothAngle
  rw [adec] at finishes
  obtain ⟨hcfg, hsync, hnext, hcycle⟩ := afterBoundary_kept (s.edgeTaken t a) t a
  refine ⟨?_, hcfg.trans frame.cfg, hsync.trans (sync.trans hs), hnext.trans next, by rw [hcycle, cycle]⟩
  rw [exec_boundary h hs he accepted ends place ha.symm wraps, finishes]

/-- R15, R181: the boundary tooth that is the third cam fault. -/
theorem exec_boundary_drops (h : s.running = true) (hs : s.adec.sync = .fullSync) {t : Stamp} {b : Adec}
    (keeps : KeepsCrankSync s t b) (wraps : b.toothAngle < s.adec.toothAngle) (mark : s.adec.inWindow = false)
    (third : 2 ≤ s.adec.camFaults) :
    CapFrame { s with timebase := t, adec := b } (s.edgeTaken t b) ∧ b.cycle = s.adec.cycle ∧
      (s.edgeTaken t b).adec.sync = .fullSync ∧
      exec (.crankEdge t s.toothEdge) s = .next ((s.edgeTaken t b).changeSyncApply t b.dropped .camFault) := by
  obtain ⟨e, gap, he, accepted, ends, place, hb⟩ := keeps.tooth
  obtain ⟨sync, window, faults, cycle, -⟩ := s.adec.tooth_kept s.cfg.active t gap
  rw [← hb] at sync window faults cycle
  have frame := s.edgeTaken_frame t b
  have adec : (s.edgeTaken t b).adec = b := frame.adec
  have drops := State.cycleBoundary_drops (w := s.edgeTaken t b) (by rw [adec, window]; exact mark)
    (by rw [adec, faults]; exact third) t b.toothAngle
  rw [adec] at drops
  exact ⟨frame, cycle, by rw [adec, sync]; exact hs,
    (exec_boundary h hs he accepted ends place hb.symm wraps).trans (congrArg _ drops)⟩

end Sys2Proof.Machine
end

section
/-! PROOFS. The checks of a staged image (R36, R37, R59, R180), and COMMIT whole: O51. -/

namespace Sys2Proof.Machine

variable {s : State}

/-! ### The row that a check names -/

/-- The lowest number with a property, as a search reports it. -/
def FirstOf (F : Nat → Prop) (o : Option Nat) : Prop :=
  (∀ r, (F r ∧ ∀ q, q < r → ¬ F q) → o = some r) ∧ ((∀ r, ¬ F r) → o = none)

theorem find?_range_first {n : Nat} {f : Nat → Bool} {F : Nat → Prop} (h : ∀ r, F r ↔ r < n ∧ f r = true) :
    FirstOf F ((List.range n).find? f) := by
  refine ⟨fun r ⟨here, lower⟩ => ?_, fun never => ?_⟩
  · obtain ⟨small, found⟩ := (h r).mp here
    refine List.find?_range_eq_some.mpr ⟨found, List.mem_range.mpr small, fun q hq => ?_⟩
    have out := lower q hq
    rw [h, not_and] at out
    simpa using out (by omega)
  · refine List.find?_eq_none.mpr fun r hr found => ?_
    exact never r ((h r).mpr ⟨List.mem_range.mp hr, found⟩)

/-- The rows of the run list are searched in their order. -/
theorem find?_runRows_first {img : Image} {f : Nat → Bool} {F : Nat → Prop}
    (h : ∀ r, F r ↔ (r < 12 ∧ img.runStart ≤ r ∧ r ≤ img.runEnd) ∧ f r = true) : FirstOf F (img.runRows.find? f) := by
  rw [Image.runRows, List.find?_filter]
  refine find?_range_first fun r => ?_
  rw [h, Image.inRun]
  simp only [Bool.and_eq_true, decide_eq_true_eq, and_assoc]

theorem any_runRows {img : Image} {f : Nat → Bool} :
    img.runRows.any f = true ↔ ∃ q, (q < 12 ∧ img.runStart ≤ q ∧ q ≤ img.runEnd) ∧ f q = true := by
  simp only [Image.runRows, Image.inRun, List.any_eq_true, List.mem_filter, List.mem_range, Bool.and_eq_true, decide_eq_true_eq]

/-! ### The checks one by one -/

theorem failsSlotCount_iff (img : Image) :
    failsSlotCount img = true ↔ img.runEnd < img.runStart ∨ img.slots < 3 ∨ 6 < img.slots := by
  simp only [failsSlotCount, Bool.or_eq_true, decide_eq_true_eq, or_assoc]

theorem repeatedRow_first (img : Image) :
    FirstOf (fun r => (r < 12 ∧ img.runStart ≤ r ∧ r ≤ img.runEnd) ∧
      ∃ q, q < r ∧ (q < 12 ∧ img.runStart ≤ q ∧ q ≤ img.runEnd) ∧ (img.row q).cyl = (img.row r).cyl) (repeatedRow img) := by
  refine find?_runRows_first fun r => and_congr_right fun _ => ?_
  rw [any_runRows]
  refine exists_congr fun q => ?_
  simp only [Bool.and_eq_true, decide_eq_true_eq]
  exact and_left_comm

/-- R59: the row of the lowest slot whose boundary lies on a missing tooth position. -/
theorem gapRow_first (img : Image) :
    FirstOf (fun r => img.runStart ≤ r ∧ r < img.runStart + img.slots ∧
      ((img.nPos - img.missing : Nat) : Int) ≤
        (img.boundary (r - img.runStart) - img.refOffset) % 5760 / (img.toothAngle : Int)) (gapRow img) := by
  have slots := find?_range_first (n := img.slots) (f := boundaryOnGap img) (F := fun i => i < img.slots ∧
    ((img.nPos - img.missing : Nat) : Int) ≤ (img.boundary i - img.refOffset) % 5760 / (img.toothAngle : Int))
    fun i => and_congr_right fun _ => decide_eq_true_iff.symm
  obtain ⟨found, never⟩ := slots
  refine ⟨fun r ⟨⟨first, last, gap⟩, lower⟩ => ?_, fun absent => ?_⟩
  · rw [gapRow, found (r - img.runStart) ⟨⟨by omega, gap⟩, fun i hi ⟨small, on⟩ => ?_⟩]
    · exact congrArg some (show img.runStart + (r - img.runStart) = r by omega)
    · refine lower (img.runStart + i) (by omega) ⟨by omega, by omega, ?_⟩
      rwa [Nat.add_sub_cancel_left]
  · rw [gapRow, never fun i ⟨small, on⟩ => ?_, Option.map_none]
    refine absent (img.runStart + i) ⟨by omega, by omega, ?_⟩
    rwa [Nat.add_sub_cancel_left]

theorem lateRow_first (img : Image) :
    FirstOf (fun r => (r < 12 ∧ img.runStart ≤ r ∧ r ≤ img.runEnd) ∧
      (2 * img.slotLen < (img.row r).knockStart + (img.row r).knockLen ∨
        ((img.row r).guardLen ≠ 0 ∧ 2 * img.slotLen < (img.row r).guardStart + (img.row r).guardLen))) (lateRow img) := by
  refine find?_runRows_first fun r => and_congr_right fun _ => ?_
  simp only [windowLate, Bool.or_eq_true, Bool.and_eq_true, decide_eq_true_eq]

/-- R37: two windows overlap when they have a cycle angle in common: the start of one of them lies in the other. -/
theorem windowsOverlap_iff (a la b lb : Nat) :
    windowsOverlap a la b lb = true ↔
      ∃ x : Nat, x < 11520 ∧ ((x : Int) - a) % 11520 < la ∧ ((x : Int) - b) % 11520 < lb := by
  simp only [windowsOverlap, Config.cycleUnits, Bool.and_eq_true, Bool.or_eq_true, decide_eq_true_eq]
  constructor
  · rintro ⟨⟨ha, hb⟩, first | second⟩
    · exact ⟨b % 11520, by omega, by omega, by omega⟩
    · exact ⟨a % 11520, by omega, by omega, by omega⟩
  · rintro ⟨x, hx, inA, inB⟩
    omega

theorem overlapRow_first (img : Image) :
    FirstOf (fun q => (q < 12 ∧ img.runStart ≤ q ∧ q ≤ img.runEnd) ∧
      ∃ r, q < r ∧ (r < 12 ∧ img.runStart ≤ r ∧ r ≤ img.runEnd) ∧ (img.row q).sensor = (img.row r).sensor ∧
        ((∃ x : Nat, x < 11520 ∧
            ((x : Int) - ((q - img.runStart) * img.slotLen + (img.row q).knockStart : Nat)) % 11520 < (img.row q).knockLen ∧
            ((x : Int) - ((r - img.runStart) * img.slotLen + (img.row r).knockStart : Nat)) % 11520 < (img.row r).knockLen) ∨
          (∃ x : Nat, x < 11520 ∧
            ((x : Int) - ((q - img.runStart) * img.slotLen + (img.row q).guardStart : Nat)) % 11520 < (img.row q).guardLen ∧
            ((x : Int) - ((r - img.runStart) * img.slotLen + (img.row r).guardStart : Nat)) % 11520 < (img.row r).guardLen)))
      (overlapRow img) := by
  refine find?_runRows_first fun q => and_congr_right fun _ => ?_
  rw [any_runRows]
  refine exists_congr fun r => ?_
  simp only [rowsOverlap, Bool.and_eq_true, Bool.or_eq_true, decide_eq_true_eq, windowsOverlap_iff, Image.tdc]
  exact and_left_comm

theorem failsCamSpan_iff (img : Image) : failsCamSpan img = true ↔ (5760 : Int) ≤ ((img.camHi : Int) - img.camLo) % 11520 :=
  decide_eq_true_iff

/-- R180: the checks are made in this order, and the first that fails is answered. -/
theorem failedCheck_order {img : Image} {slotCount division offset span : Prop} {repeats onGap late overlap : Nat → Prop}
    (h1 : failsSlotCount img = true ↔ slotCount) (h2 : failsWheelDivision img = true ↔ division)
    (h3 : FirstOf repeats (repeatedRow img)) (h4 : failsSegmentOffset img = true ↔ offset) (h5 : FirstOf onGap (gapRow img))
    (h6 : FirstOf late (lateRow img)) (h7 : FirstOf overlap (overlapRow img)) (h8 : failsCamSpan img = true ↔ span) :
    let lowest : (Nat → Prop) → Nat → Prop := fun f r => f r ∧ ∀ q, q < r → ¬ f q
    let never : (Nat → Prop) → Prop := fun f => ∀ r, ¬ f r
    (slotCount → failedCheck img = some (1, 255)) ∧
    (¬ slotCount → (division → failedCheck img = some (2, 255)) ∧
      (¬ division → (∀ r, lowest repeats r → failedCheck img = some (3, r)) ∧
        (never repeats → (offset → failedCheck img = some (4, 255)) ∧
          (¬ offset → (∀ r, lowest onGap r → failedCheck img = some (5, r)) ∧
            (never onGap → (∀ r, lowest late r → failedCheck img = some (6, r)) ∧
              (never late → (∀ r, lowest overlap r → failedCheck img = some (7, r)) ∧
                (never overlap → (span → failedCheck img = some (8, 255)) ∧
                  (¬ span → failedCheck img = none)))))))) := by
  intro lowest never
  have E := failedCheck.eq_def img
  refine ⟨fun c => E.trans (if_pos (h1.mpr c)), fun c => ?_⟩
  replace E := E.trans (if_neg (mt h1.mp c))
  refine ⟨fun c => E.trans (if_pos (h2.mpr c)), fun c => ?_⟩
  replace E := E.trans (if_neg (mt h2.mp c))
  refine ⟨fun r c => by rw [E, h3.1 r c], fun c => ?_⟩
  rw [h3.2 c] at E
  refine ⟨fun c => E.trans (if_pos (h4.mpr c)), fun c => ?_⟩
  replace E := E.trans (if_neg (mt h4.mp c))
  refine ⟨fun r c => by rw [E, h5.1 r c], fun c => ?_⟩
  rw [h5.2 c] at E
  refine ⟨fun r c => by rw [E, h6.1 r c], fun c => ?_⟩
  rw [h6.2 c] at E
  refine ⟨fun r c => by rw [E, h7.1 r c], fun c => ?_⟩
  rw [h7.2 c] at E
  exact ⟨fun c => E.trans (if_pos (h8.mpr c)), fun c => E.trans (if_neg (mt h8.mp c))⟩

/-! ### COMMIT whole -/

/-- Settles O51: the tests of COMMIT, its class, the apply at once and the two applies of a pending commit, and the eight checks. -/
theorem commit : Obligations.Commit := by
  refine ⟨fun t p b s ready => ?_, fun t k a s h hs pending keeps wraps fine => ?_, fun t cmd k a cause s v h hs pending => ?_,
    fun img => ?_⟩
  · intro c cls cmd atCycle gen answer
    refine ⟨fun high => ?_, fun low busy => ?_, fun code row low idle fails => ?_, fun low idle passes => ?_,
      commitClass_self, fun a g => commitClass_geometry, fun a g => commitClass_layout, fun a g => commitClass_calibration⟩
    · refine congrArg _ (request_refused ready (n := 1) rfl (by decide) ?_)
      rw [serveCommit, show timingOfCode (u8 [b] 0) = none from timingOfCode_none high]
    · obtain ⟨timing, ht, -⟩ := timingOfCode_some low
      exact congrArg _ (request_refused ready (n := 1) rfl (by decide) (serveCommit_busy (by exact ht) busy))
    · obtain ⟨timing, ht, -⟩ := timingOfCode_some low
      refine congrArg _ ((request_served ready (n := 1) rfl (by decide) _ t).trans ?_)
      rw [serveCommit_checked (s := s.taken p t) (pl := [b]) ht idle, show (s.taken p t).cfg.staged = s.cfg.staged from rfl, fails]
      rfl
    · obtain ⟨timing, ht, one⟩ := timingOfCode_some low
      have waits : timing = .atCycle ∧ s.adec.sync = .fullSync ↔ atCycle := and_congr_left fun _ => one
      refine ⟨fun later => ?_, fun now => ?_, fun now => ?_, fun now same => ?_⟩
      · have rule := exec_commit_accepted (t := t) ready ht idle passes
        dsimp only at rule
        rw [rule, (waits.mpr later).1, commitPayload_eq, State.commitOutcome, if_pos ⟨rfl, later.2⟩, State.acceptCommit,
          if_pos ⟨rfl, later.2⟩]
        rfl
      all_goals
        have rule := exec_commit_now (t := t) ready ht idle passes (mt waits.mp now)
        dsimp only at rule
        rw [commitPayload_eq] at rule
      · refine ⟨_, rule, ((s.taken p t).applyCommit_applied t _).cfg, ?_⟩
        exact congrArg PortState.buffer (PerPort.get_set_same _ p _)
      · exact ⟨_, (s.taken p t).applyCommit_applied t ⟨timing, cls, p⟩, rule⟩
      · intro rec1
        have equal : commitClass s.cfg.active s.cfg.staged = .calibration := by
          rw [show s.cfg.staged = s.cfg.active from same]
          exact commitClass_self _
        have applied := (s.taken p t).applyCommit_same same t timing p
        have code : answer 0 gen = okWith [BitVec.ofNat 8 CommitClass.calibration.code, BitVec.ofNat 8 0, gen.extractLsb' 24 8,
            gen.extractLsb' 16 8, gen.extractLsb' 8 8, gen.extractLsb' 0 8] := by
          rw [← equal]
          rfl
        rw [rule, equal, applied, code]
        rfl
  · intro v cmd
    obtain ⟨rule, hcfg, full, hnext, hcycle⟩ := exec_boundary_finishes h hs keeps wraps fine
    have held : v.cfg.pendingCommit = some k := by rw [hcfg]; exact pending
    refine ⟨v.applyCommit t k, v.applyCommit_applied t k, fun ends => ?_, fun calibration early => ?_⟩
    · rw [rule, State.finishBoundary_applies held full ends]
    · rw [rule, State.finishBoundary_raises held full calibration early, hcfg, hnext, hcycle,
        show s.adec.cycle + 1 - 1 = s.adec.cycle from BitVec.add_sub_cancel _ _]
  · intro img
    have crank : SyncState.crankSync ≠ .fullSync := by decide
    have halted : SyncState.halted ≠ .fullSync := by decide
    have seek : SyncState.seek ≠ .fullSync := by decide
    rintro (⟨rfl, late, rfl, rfl, rfl⟩ | ⟨e, rfl, counts, lo, hi, out, one, third, rfl, rfl, rfl⟩ |
      ⟨b, rfl, keeps, wraps, mark, third, rfl, rfl, rfl⟩ | ⟨e, rfl, he, accepted, misplaced, rfl, rfl⟩)
    · have due := (v.stallDue_iff t).mpr ⟨by rw [hs]; decide, late⟩
      exact exec_loss_applied (exec_stall_due h due) hs halted pending rfl rfl rfl
    · exact exec_loss_applied (exec_camEdge_drops h hs counts lo hi out one third) hs crank pending rfl rfl rfl
    · obtain ⟨frame, cycle, full, rule⟩ := exec_boundary_drops h hs keeps wraps mark third
      refine exec_loss_applied rule full crank (by rw [frame.cfg]; exact pending) cycle ?_ rfl
      have time : (s.edgeTaken t b).timebase = t := frame.timebase
      generalize s.edgeTaken t b = w at time
      rw [← time]
    · obtain ⟨off, rfl⟩ := misplaced_cause he misplaced
      have stored := s.noticePeriod_arrived s.timebase (t - e).toNat
      rw [← s.noticePeriod_taken t]
      refine exec_loss_applied (exec_toothEdge_loses h (.inr hs) he accepted off) hs seek pending rfl ?_ ?_
      · rw [show s.noticePeriod (t - e).toNat = _ from stored]
      · rw [show s.noticePeriod (t - e).toNat = _ from stored]
  · exact failedCheck_order (failsSlotCount_iff img) decide_eq_true_iff (repeatedRow_first img) decide_eq_true_iff (gapRow_first img)
      (lateRow_first img) (overlapRow_first img) (failsCamSpan_iff img)

end Sys2Proof.Machine
end
